-- ==== Sys2Proof/Word.lean ====
section
/-! DEFINITION. The bytes of the link and the index types of the part's tables. -/

namespace Sys2Proof

/-- One byte of the SPI link (R151). -/
abbrev Byte := BitVec 8

/-- A host port, P0 to P3 (R150). -/
abbrev PortId := Fin 4

/-- A tally, T0 to T255 (R1). -/
abbrev TallyId := Fin 256

/-- An interval group, G0 to G7 (R79). -/
abbrev GroupId := Fin 8

/-- A view handle of one port, H0 to H63 (R25). -/
abbrev HandleId := Fin 64

/-- A wrapping 32-bit interval number or interval tag (R5, R80). -/
abbrev Interval := BitVec 32

end Sys2Proof
end

