-- ==== Sys2Proof/Syntax.lean ====
section
/-! DEFINITION. The commands: one constructor of `Instr` per row of spec/opcode_table.json, and the
27 requests a frame may carry. -/

namespace Sys2Proof

/-- The 27 requests a taken frame may name (R157, R168). -/
inductive Req where
  | hello | leave | setMask | takeEvent | ackEvent
  | define | retire | grant | freeze | resume | claimTally
  | setLimit | bind | unbind | post | drain
  | read | take | exchange | clearFlags
  | claimGroup | setGroup | close | groupStatus
  | snapList | readSnap | release
  deriving DecidableEq, Repr

/-- How much of a POST one command carries out, so that other actions can fall between its entries (R43,
R46, log entry 11): the whole of it; the taking of its frame alone; or, of a POST whose frame was taken so,
the examination of its next entry, in which no frame passes. -/
inductive PostPart where
  | whole | taken | entry
  deriving DecidableEq, Repr

/-- Bits clocked on a link, and whether the select rises after the last of them or stays low. -/
structure Clocking where
  bits : List Bool
  rises : Bool
  deriving DecidableEq, Repr

/-- The payload of a HELLO, and how much of it one command carries out: `opens` says whether, on an OFFLINE
port, the session opens in the same step or is left to HELLO_OPEN_SESSION, so that PRSTn# can fall between the
two (R165, log entry 1). -/
structure HelloForm where
  payload : List Byte
  opens : Bool
  deriving DecidableEq, Repr

/-- The commands of the part. `p` is the port a transaction runs on.

A request command is one whole REQUEST transaction on an idle link: its frame carries the tag `tag`,
the request's code, the payload bytes `pl` and a correct check byte (R153, R168). `rises` says whether
the select rises at the end of the command or stays low, so that the transaction goes on in the
port's next command (R151, log entry 1). -/
inductive Instr where
  /-- STATUS: `n` bits are clocked after the type byte. -/
  | status (p : PortId) (n : Nat) (rises : Bool)
  /-- FETCH: `n` bits are clocked after the type byte. -/
  | fetch (p : PortId) (n : Nat) (rises : Bool)
  /-- UNKNOWN_TYPE: the type byte `ty`, then `n` bits. -/
  | unknownType (p : PortId) (ty : Byte) (n : Nat) (rises : Bool)
  /-- FRAME_REFUSED: a REQUEST transaction of any bits `si` after its type byte. -/
  | frameRefused (p : PortId) (si : List Bool) (rises : Bool)
  /-- ABANDONED_TRANSACTION_END: `n` bits and the select high that ends an abandoned transaction. -/
  | abandonedTransactionEnd (p : PortId) (n : Nat)
  /-- UNKNOWN_REQUEST: a frame with the request code `code`. -/
  | unknownRequest (p : PortId) (tag code : Byte) (pl : List Byte)
  | hello (p : PortId) (tag : Byte) (form : HelloForm)
  | helloOpenSession (p : PortId)
  | leave (p : PortId) (tag : Byte) (pl : List Byte)
  | sessionEndViews (p : PortId)
  | sessionEndReaders (p : PortId)
  | sessionEndTallyAdmin (p : PortId)
  | sessionEndGroupAdmin (p : PortId)
  | sessionEndEvents (p : PortId)
  | setMask (p : PortId) (tag : Byte) (pl : List Byte)
  | takeEvent (p : PortId) (tag : Byte) (pl : List Byte)
  | ackEvent (p : PortId) (tag : Byte) (pl : List Byte)
  | define (p : PortId) (tag : Byte) (pl : List Byte)
  | retire (p : PortId) (tag : Byte) (pl : List Byte)
  | grant (p : PortId) (tag : Byte) (pl : List Byte)
  | freeze (p : PortId) (tag : Byte) (pl : List Byte)
  | resume (p : PortId) (tag : Byte) (pl : List Byte)
  | claimTally (p : PortId) (tag : Byte) (pl : List Byte)
  | setLimit (p : PortId) (tag : Byte) (pl : List Byte)
  | bind (p : PortId) (tag : Byte) (pl : List Byte)
  | unbind (p : PortId) (tag : Byte) (pl : List Byte)
  /-- POST, whole or in the part that `part` says (R43, R46). -/
  | post (p : PortId) (tag : Byte) (pl : List Byte) (part : PostPart)
  | drain (p : PortId) (tag : Byte) (pl : List Byte)
  | read (p : PortId) (tag : Byte) (pl : List Byte)
  | take (p : PortId) (tag : Byte) (pl : List Byte)
  | exchange (p : PortId) (tag : Byte) (pl : List Byte)
  | clearFlags (p : PortId) (tag : Byte) (pl : List Byte)
  | claimGroup (p : PortId) (tag : Byte) (pl : List Byte)
  | setGroup (p : PortId) (tag : Byte) (pl : List Byte)
  | close (p : PortId) (tag : Byte) (pl : List Byte)
  | groupStatus (p : PortId) (tag : Byte) (pl : List Byte)
  | snapList (p : PortId) (tag : Byte) (pl : List Byte)
  | readSnap (p : PortId) (tag : Byte) (pl : List Byte)
  | release (p : PortId) (tag : Byte) (pl : List Byte)
  /-- APPLY: one grant of the arbiter and the apply it starts. -/
  | apply
  /-- TICK: one rising edge on the TICK input. -/
  | tick
  /-- TIMED_CLOSE_ATTEMPT: group `g` handles an edge that TICK left owed to it. -/
  | timedCloseAttempt (g : GroupId)
  /-- COPIER_STEP: the copier of group `g` acts on the next member. -/
  | copierStep (g : GroupId)
  | closeEnd (g : GroupId)
  | prstAssert (p : PortId)
  | prstRelease (p : PortId)
  | resetAssert
  | resetRelease
  /-- TRANSACTION_WITHOUT_TYPE: fewer than eight bits are clocked. Where the select stays low the type byte may
  still be completed (R151). -/
  | transactionWithoutType (p : PortId) (si : Clocking)
  deriving DecidableEq, Repr

end Sys2Proof
end

