-- ==== Sys2Proof/Decode.lean ====
section
/-! DEFINITION. The host's question about table words. No row of spec/opcode_table.json gives a bit,
so no word spells a command. The part's own decoding of frames is in Machine/Frame.lean. -/

namespace Sys2Proof

/-- No row of the table gives bits: no word spells a command (log entry 18). -/
def decodeTableWord (_nbits _w : Nat) : Option Instr := none

end Sys2Proof
end

