-- ==== Sys2Proof/Config.lean ====
section
/-! DEFINITION. What the part fixes (its capacities and identification) and what the manual leaves
open (opaque constants without a body). -/

namespace Sys2Proof

/-- Places of one staging FIFO (R47). -/
def Config.fifoPlaces : Nat := 8

/-- Ordinary places of one event queue (R133). -/
def Config.queuePlaces : Nat := 15

/-- Records one ring holds at most (R105). -/
def Config.ringPlaces : Nat := 4

/-- Cells of the pool (R104). -/
def Config.poolCells : Nat := 1024

/-- The largest payload a request frame may declare (section 9.3, R154). -/
def Config.maxPayload : Nat := 120

/-- The longest run of cells one READ_SNAP returns (R115). -/
def Config.maxCellsRead : Nat := 8

/-- FREE VALUE (log entry 5). R23 gives no order among the tallies one session end vacates. The n-th
draw vacates them by rising rank, and no proof can see a rank. -/
opaque Config.vacatedTallyRank : Nat → TallyId → Nat

/-- FREE VALUE (log entry 5). R100 gives no order among the groups one session end vacates. -/
opaque Config.vacatedGroupRank : Nat → GroupId → Nat

end Sys2Proof
end

