-- ==== Sys2Proof/Machine/State.lean ====
section
/-! DEFINITION. The state of the part as plain data, and its values after RESET#. -/

namespace Sys2Proof.Machine

/-! ## Codes and choices (R168) -/

/-- Tally kinds (R2). -/
inductive Kind where
  | sumU | sumS | peak
  deriving DecidableEq, Repr

/-- Tally states (R13). -/
inductive TallyState where
  | free | live | frozen
  deriving DecidableEq, Repr

/-- Overflow policies of a SUM_S tally (R3). -/
inductive OverflowPolicy where
  | saturate | freeze
  deriving DecidableEq, Repr

/-- Trip states of a limit (R122). -/
inductive Trip where
  | armed | tripped
  deriving DecidableEq, Repr

/-- Which of a tally's two limits (R122, R129). -/
inductive Side where
  | upper | lower
  deriving DecidableEq, Repr

/-- Group states (R79). -/
inductive GroupState where
  | opened | closing
  deriving DecidableEq, Repr

/-- Ring policies (R79). -/
inductive RingPolicy where
  | hold | discardOldest
  deriving DecidableEq, Repr

/-- Snapshot record states (R106). -/
inductive RecordState where
  | filling | ready
  deriving DecidableEq, Repr

/-- What started a close (R86, R87). -/
inductive Cause where
  | manual | timed
  deriving DecidableEq, Repr

/-- Event classes, ranked FAULT highest, then INTERVAL, then NOTICE (R134). -/
inductive EventClass where
  | notice | interval | fault
  deriving DecidableEq, Repr

/-- The nine event kinds (R135). -/
inductive EventKind where
  | tallyFrozen | snapshotLost | contribRefused | queueOverflow | snapshotReady
  | closeMissed | limitReached | limitCleared | adminVacant
  deriving DecidableEq, Repr

/-- Why an apply did not add its contribution (R63). -/
inductive RefusedReason where
  | frozen | negative | overflow
  deriving DecidableEq, Repr

/-- Why a timed close was missed (R92). -/
inductive MissedReason where
  | closing | ringFull | noSpace
  deriving DecidableEq, Repr

/-- Response status codes (section 9.8, R168). -/
inductive Status where
  | ok | accepted | partly | busy | full | noSpace | ringFull | noHandle | noTally | noRight
  | notAdmin | notVacant | inUse | already | mismatch | stale | notHeld | notReady | badKind
  | badArg | unknown | offline | none | nothingInService
  deriving DecidableEq, Repr

/-- Refusal reasons of the link (R150, R156). -/
inductive LinkReason where
  | none | busy | check | length | type
  deriving DecidableEq, Repr

/-- Session states (R161). -/
inductive Session where
  | offline | online
  deriving DecidableEq, Repr

/-- The five steps of a session end, named after what each tears down (R164). -/
inductive EndStep where
  | views | readers | tallyAdmin | groupAdmin | events
  deriving DecidableEq, Repr

/-! ## The tally table (R1 to R12) -/

/-- One port's rights on one tally (R10). -/
structure Rights where
  post : Bool
  read : Bool
  draw : Bool
  watch : Bool
  deriving DecidableEq, Repr

/-- A present limit (R122). -/
structure Limit where
  level : Int
  hyst : Nat
  trip : Trip
  deriving DecidableEq, Repr

/-- A tally record (section 1.1). -/
structure Tally where
  state : TallyState
  kind : Kind
  group : GroupId
  value : Option Int
  policy : OverflowPolicy
  resetOnClose : Bool
  tag : Interval
  count : Nat
  last : Option PortId
  overflow : Bool
  rollover : Nat
  rejected : Nat
  dropped : Nat
  token : BitVec 8
  admin : Option PortId
  rights : Vector Rights 4
  bindCount : Nat
  stagedCount : Nat
  upper : Option Limit
  lower : Option Limit
  deriving DecidableEq, Repr

/-! ## Views and staging FIFOs -/

/-- A bound view entry (R25). -/
structure ViewEntry where
  tally : TallyId
  weight : Nat
  deriving DecidableEq, Repr

/-- A staged contribution (R47). -/
structure Staged where
  tally : TallyId
  weight : Nat
  quantity : Int
  port : PortId
  deriving DecidableEq, Repr

/-! ## Event blocks (R133 to R135) -/

/-- What an event is about; a tally and a group of one number differ (R134). -/
inductive Subject where
  | none
  | tally (t : TallyId)
  | group (g : GroupId)
  deriving DecidableEq, Repr

/-- The latest detail of an event, by kind (R135). -/
inductive Detail where
  | none
  | interval (n : Interval)
  | side (d : Side)
  | refused (r : RefusedReason)
  | missed (r : MissedReason)
  | port (p : PortId)
  deriving DecidableEq, Repr

/-- An event record; its class is fixed by its kind (R134). -/
structure Event where
  kind : EventKind
  subject : Subject
  detail : Detail
  merged : Nat
  deriving DecidableEq, Repr

/-- The classes a port holds back from delivery (R141). -/
structure Mask where
  fault : Bool
  interval : Bool
  notice : Bool
  deriving DecidableEq, Repr

/-- One port's event block (R133). `queue` is oldest first; `marker` is the merge count of the
QUEUE_OVERFLOW entry in the marker slot; `stack` is TOP FIRST, its last element the bottom. -/
structure EventBlock where
  queue : List Event
  marker : Option Nat
  mask : Mask
  stack : List Event
  deriving DecidableEq, Repr

/-! ## Port engines (R150) -/

/-- A response, its check byte formed when it is shifted out (R158). -/
structure Response where
  tag : Byte
  status : Status
  session : BitVec 8
  payload : List Byte
  deriving DecidableEq, Repr

/-- What holds a WORKING slot: a request being acted on, a DRAIN that waits, the session work of HELLO
or LEAVE, or a session end that PRSTn# began (R160, R164, R165). -/
inductive Work where
  | request (tag : Byte)
  | drain (tag : Byte)
  | hello (tag : Byte)
  | leave (tag : Byte)
  | portReset
  deriving DecidableEq, Repr

/-- A POST whose frame was taken and whose entries are not all examined: the tag of its frame, the entries
that wait, and the statuses of those examined (R43, R45). -/
structure PostWork where
  tag : Byte
  rest : List (Byte × BitVec 32)
  sts : List Status
  deriving DecidableEq, Repr

/-- The response slot (R160). -/
inductive Slot where
  | empty
  | working (w : Work)
  | ready (r : Response)
  deriving DecidableEq, Repr

/-- The link state (R150). CSn# is low in every state but `idle`. -/
inductive LinkState where
  | idle
  /-- The select is low and the type byte is not complete: the status byte and the response settled at
  select fall, and the bits sampled so far (R151, R158). -/
  | typing (first : Byte) (settled : Option Response) (rx : List Bool)
  /-- A STATUS transaction: the byte being shifted out and how many of its bits are out (R152). -/
  | status (cur : Byte) (out : Nat)
  /-- A REQUEST transaction: the status byte formed at select fall and the bits sampled so far. -/
  | request (first : Byte) (rx : List Bool)
  /-- A FETCH transaction: what was settled at select fall and the bits clocked so far (R158). -/
  | fetch (settled : Option Response) (out : Nat)
  /-- A transaction of unknown type (R151). -/
  | unknown
  /-- Abandoned, until the select rises (R155). -/
  | abandoned
  deriving DecidableEq, Repr

/-- All that belongs to one port: view table, staging FIFO, event block with ALERTn#, port engine and
pins. `so` holds the bits driven on SOn in the present or latest transaction (log entry 9). -/
structure Port where
  session : Session
  number : BitVec 8
  slot : Slot
  reason : LinkReason
  link : LinkState
  sessionEnd : Option EndStep
  posting : Option PostWork
  view : Vector (Option ViewEntry) 64
  fifo : List Staged
  events : EventBlock
  alert : Bool
  prst : Bool
  so : List Bool
  deriving DecidableEq, Repr

/-! ## Groups (R79) and the snapshot store (R103 to R107) -/

/-- A group record. `walk` counts the members the copier has acted on in the close in progress (R97);
`owedEdges` counts TICK edges the group has not handled yet (R85, log entry 4). -/
structure Group where
  state : GroupState
  interval : Interval
  admin : Option PortId
  period : Nat
  countdown : Nat
  policy : RingPolicy
  missed : Nat
  walk : Nat
  owedEdges : Nat
  deriving DecidableEq, Repr

/-- One member's closing values (R107). -/
structure SnapCell where
  value : Option Int
  count : Nat
  overflow : Bool
  frozen : Bool
  deriving DecidableEq, Repr

/-- A snapshot record (R106); a cell is `none` until its member's copy step. -/
structure SnapRecord where
  group : GroupId
  interval : Interval
  state : RecordState
  cause : Cause
  missedBefore : Nat
  members : List TallyId
  cells : List (Option SnapCell)
  readers : List PortId
  discard : Bool
  deriving DecidableEq, Repr

/-- The part. `pending` is the queue of commands that wait, first in first out; `draws` counts the free
values drawn so far (log entries 2, 5, 6). -/
structure State where
  tallies : Vector Tally 256
  ports : Vector Port 4
  groups : Vector Group 8
  rings : Vector (List SnapRecord) 8
  freeCells : Nat
  pointer : PortId
  resetPin : Bool
  draws : Nat
  pending : List Instr
  deriving DecidableEq, Repr

/-- Why the machine stops. No constructor: the spec names no happening that stops the part, and gives
every command an effect in every state, so no step ends in a fault. -/
inductive Fault where
  deriving DecidableEq, Repr

/-- Why a command has no meaning in the model. -/
inductive Refusal where
  /-- Raised by `exec` for a command whose meaning is not written; no arm raises it now. Safe. -/
  | notModelled (mnemonic : String)
  deriving DecidableEq, Repr

/-! ## Reset values -/

/-- No right at all (R24). -/
def Rights.none : Rights := ⟨false, false, false, false⟩

/-- All four rights (R16). -/
def Rights.all : Rights := ⟨true, true, true, true⟩

/-- The cleared values of a tally, after RESET# and after RETIRE (R24). -/
def Tally.cleared : Tally where
  state := .free
  kind := .sumU
  group := 0
  value := some 0
  policy := .saturate
  resetOnClose := false
  tag := 0
  count := 0
  last := Option.none
  overflow := false
  rollover := 0
  rejected := 0
  dropped := 0
  token := 0
  admin := Option.none
  rights := Vector.replicate 4 Rights.none
  bindCount := 0
  stagedCount := 0
  upper := Option.none
  lower := Option.none

/-- Every class unmasked (R133). -/
def Mask.empty : Mask := ⟨false, false, false⟩

/-- An event block after RESET# and after a session end (R133, R147). -/
def EventBlock.empty : EventBlock := ⟨[], Option.none, Mask.empty, []⟩

/-- A port after RESET# (R40, R51, R133, R149, R150), its link idle and PRSTn# released. -/
def Port.atReset : Port where
  session := .offline
  number := 0
  slot := .empty
  reason := .none
  link := .idle
  sessionEnd := Option.none
  posting := Option.none
  view := Vector.replicate 64 Option.none
  fifo := []
  events := EventBlock.empty
  alert := false
  prst := false
  so := []

/-- A group record after RESET# (R81). -/
def Group.atReset : Group where
  state := .opened
  interval := 0
  admin := Option.none
  period := 0
  countdown := 0
  policy := .hold
  missed := 0
  walk := 0
  owedEdges := 0

/-- The part right after RESET# has been released (R166), every select high and every PRSTn# released
(DESIGN CHOICE, log entry 8). -/
def State.reset : State where
  tallies := Vector.replicate 256 Tally.cleared
  ports := Vector.replicate 4 Port.atReset
  groups := Vector.replicate 8 Group.atReset
  rings := Vector.replicate 8 []
  freeCells := Config.poolCells
  pointer := 0
  resetPin := false
  draws := 0
  pending := []

end Sys2Proof.Machine
end

