-- ==== Sys2Proof/Machine/Flags.lean ====
section
/-! DEFINITION. Saturating counts, the overflow flag, the error counts, the flag token, and the move a
limit makes when it is evaluated. -/

namespace Sys2Proof.Machine

/-- One more, stopping at `top` (section "Conventions", Counts). -/
def saturate (top n : Nat) : Nat := if n < top then n + 1 else n

/-- A flag event: the token increments, returning to 0 after 255 (R8). -/
def Tally.flagEvent (x : Tally) : Tally := { x with token := x.token + 1 }

/-- The overflow flag is set, whether or not it was: a flag event (R7, R8). -/
def Tally.noteOverflow (x : Tally) : Tally := { x with overflow := true }.flagEvent

/-- A SUM_U wrap: a flag event even when the count stands at 255 (R57). -/
def Tally.noteRollover (x : Tally) : Tally := { x with rollover := saturate 255 x.rollover }.flagEvent

/-- A negative product met a SUM_U tally (R57). -/
def Tally.noteRejected (x : Tally) : Tally := { x with rejected := saturate 255 x.rejected }.flagEvent

/-- A contribution met a FROZEN tally (R56). -/
def Tally.noteDropped (x : Tally) : Tally := { x with dropped := saturate 255 x.dropped }.flagEvent

/-- A successful CLEAR_FLAGS (R76). -/
def Tally.clearFlags (x : Tally) : Tally :=
  { x with overflow := false, rollover := 0, rejected := 0, dropped := 0, token := x.token + 1 }

/-- The greatest SUM_U value (R2). -/
def maxUnsigned : Int := 2 ^ 64 - 1

/-- The greatest SUM_S value (R2). -/
def maxSigned : Int := 2 ^ 63 - 1

/-- The least SUM_S value (R2). -/
def minSigned : Int := -2 ^ 63

/-- The number lies in the range of the kind (R2, R73, R129). -/
def Kind.holds (k : Kind) (v : Int) : Bool :=
  match k with
  | .sumU => 0 ≤ v && v ≤ maxUnsigned
  | .sumS => minSigned ≤ v && v ≤ maxSigned
  | .peak => minSigned ≤ v && v ≤ maxSigned

/-- The condition that trips an ARMED limit (R123, R124). -/
def Limit.trips (d : Side) (l : Limit) (v : Int) : Bool :=
  match d with
  | .upper => l.level ≤ v
  | .lower => v ≤ l.level

/-- The condition that releases a TRIPPED limit; L - h and L + h are exact (R123, R124). -/
def Limit.releases (d : Side) (l : Limit) (v : Int) : Bool :=
  match d with
  | .upper => v ≤ l.level - l.hyst
  | .lower => l.level + l.hyst ≤ v

/-- One evaluation of one limit: it moves at most once, and a move names its event (R123, R124). -/
def Limit.evaluate (d : Side) (l : Limit) (v : Int) : Limit × Option EventKind :=
  match l.trip with
  | .armed => if l.trips d v then ({ l with trip := .tripped }, some .limitReached) else (l, none)
  | .tripped => if l.releases d v then ({ l with trip := .armed }, some .limitCleared) else (l, none)

/-- The moves one limit contributes to an evaluation. -/
def Limit.moves (d : Side) (l : Option Limit) (v : Int) : List (EventKind × Side) :=
  match l with
  | none => []
  | some l =>
    match (l.evaluate d v).2 with
    | none => []
    | some k => [(k, d)]

/-- The trip states after an evaluation of both limits, an absent one passed over (R125). A PEAK tally
carries no limits, so an absent value is never evaluated. -/
def Tally.evaluate (x : Tally) : Tally :=
  match x.value with
  | none => x
  | some v =>
    { x with
      upper := x.upper.map fun l => (l.evaluate .upper v).1
      lower := x.lower.map fun l => (l.evaluate .lower v).1 }

/-- The moves of an evaluation, the upper limit's before the lower's (R125, R128). -/
def Tally.limitMoves (x : Tally) : List (EventKind × Side) :=
  match x.value with
  | none => []
  | some v => Limit.moves .upper x.upper v ++ Limit.moves .lower x.lower v

/-- The value a close leaves a member: 0 or kept for a SUM tally, absent for PEAK (R3, R95). -/
def Tally.valueAfterClose (x : Tally) : Option Int :=
  match x.kind with
  | .peak => none
  | _ => if x.resetOnClose then some 0 else x.value

/-- The reset of a member for interval `n`: steps 2 to 5 of the copy step (R95), and the whole of what
an unobserved close does to a member (R90). The evaluation is silent (R127). -/
def Tally.startInterval (x : Tally) (n : Interval) : Tally :=
  { x with value := x.valueAfterClose, count := 0, tag := n }.evaluate

/-- A defined tally is LIVE or FROZEN (R14). -/
def Tally.defined (x : Tally) : Bool := x.state != .free

end Sys2Proof.Machine
end

