-- ==== Sys2Proof/Machine/Events.lean ====
section
/-! DEFINITION. The event block: classes, posting and merging, deliverability, taking and
acknowledging, and the level of ALERTn#. -/

namespace Sys2Proof.Machine

/-- The class of a kind (R135). -/
def EventKind.cls : EventKind → EventClass
  | .tallyFrozen | .snapshotLost | .contribRefused | .queueOverflow => .fault
  | .snapshotReady | .closeMissed => .interval
  | .limitReached | .limitCleared | .adminVacant => .notice

/-- FAULT ranks highest, then INTERVAL, then NOTICE (R134). -/
def EventClass.rank : EventClass → Nat
  | .notice => 0
  | .interval => 1
  | .fault => 2

/-- The class of an event. -/
def Event.cls (e : Event) : EventClass := e.kind.cls

/-- The class is held back (R141). -/
def Mask.has (m : Mask) : EventClass → Bool
  | .fault => m.fault
  | .interval => m.interval
  | .notice => m.notice

/-- The event taken from the marker slot (R139). -/
def overflowEvent (n : Nat) : Event := ⟨.queueOverflow, .none, .none, n⟩

/-- Same kind and same subject: the condition of a merge (R137). -/
def Event.matches (e : Event) (k : EventKind) (u : Subject) : Bool := e.kind == k && e.subject == u

/-- A merge: the count increments, stopping at 255, and the detail is the latest (R138). -/
def Event.absorb (e : Event) (d : Detail) : Event := { e with merged := saturate 255 e.merged, detail := d }

/-- The marker slot after one more lost posting (R139). -/
def noteLost : Option Nat → Option Nat
  | none => some 1
  | some n => some (saturate 255 n)

/-- A posting to the block of an ONLINE port: merge, else append, else overflow (R137). At most one
entry matches, because no two entries share kind and subject. -/
def EventBlock.post (b : EventBlock) (k : EventKind) (u : Subject) (d : Detail) : EventBlock :=
  if b.queue.any (·.matches k u) then
    { b with queue := b.queue.map fun e => if e.matches k u then e.absorb d else e }
  else if b.queue.length < Config.queuePlaces then
    { b with queue := b.queue ++ [⟨k, u, d, 1⟩] }
  else
    { b with marker := noteLost b.marker }

/-- The class is higher than the class on top of the in-service stack (R142). -/
def EventBlock.aboveTop (b : EventBlock) (c : EventClass) : Bool :=
  match b.stack with
  | [] => true
  | e :: _ => e.cls.rank < c.rank

/-- An event of this class is deliverable (R142). -/
def EventBlock.classDeliverable (b : EventBlock) (c : EventClass) : Bool := !b.mask.has c && b.aboveTop c

/-- A queued event, ordinary or the marker, is deliverable (R142). -/
def EventBlock.hasDeliverable (b : EventBlock) : Bool :=
  (b.marker.isSome && b.classDeliverable .fault) || b.queue.any fun e => b.classDeliverable e.cls

/-- ALERTn# is asserted exactly while the port is ONLINE and a deliverable event waits (R146). -/
def Port.alertLevel (x : Port) : Bool := x.session == .online && x.events.hasDeliverable

/-- The pin takes the level that the port's state gives (R146). Every write of a port passes here. -/
def Port.driveAlert (x : Port) : Port := { x with alert := x.alertLevel }

/-- The event TAKE_EVENT would take from one class, and the block without it: within FAULT the marker
first, else the oldest entry of the class (R143). -/
def EventBlock.pickClass (b : EventBlock) (c : EventClass) : Option (Event × EventBlock) :=
  if b.classDeliverable c then
    match c, b.marker with
    | .fault, some n => some (overflowEvent n, { b with marker := none })
    | _, _ => (b.queue.find? (·.cls == c)).map fun e => (e, { b with queue := b.queue.eraseP (·.cls == c) })
  else none

/-- The selection of TAKE_EVENT: the highest class with a deliverable event (R143). -/
def EventBlock.pick (b : EventBlock) : Option (Event × EventBlock) :=
  (b.pickClass .fault).or ((b.pickClass .interval).or (b.pickClass .notice))

/-- The selected event moves onto the in-service stack (R143). -/
def EventBlock.take (b : EventBlock) : Option (Event × EventBlock) :=
  b.pick.map fun (e, b') => (e, { b' with stack := e :: b'.stack })

/-- The top of the in-service stack is removed (R145). -/
def EventBlock.ack (b : EventBlock) : Option (Event × EventBlock) :=
  match b.stack with
  | [] => none
  | e :: rest => some (e, { b with stack := rest })

end Sys2Proof.Machine
end

