-- ==== Sys2Proof/Machine/Operands.lean ====
section
/-! DEFINITION. The fields of request payloads and of responses: widths, byte order and codes
(R168, R170). -/

namespace Sys2Proof.Machine

/-! ## Byte order: most significant byte first (R168) -/

/-- The unsigned number that bytes spell. -/
def beNat (bs : List Byte) : Nat := bs.foldl (fun n b => 256 * n + b.toNat) 0

/-- The `n` low bytes of a number, most significant first. -/
def beBytes : Nat → Nat → List Byte
  | 0, _ => []
  | n + 1, x => BitVec.ofNat 8 (x / 256 ^ n) :: beBytes n x

/-- One byte of a payload. -/
def byteAt (pl : List Byte) (i : Nat) : Byte := pl.getD i 0

/-- `n` bytes of a payload from byte `i` on, as a number. -/
def fieldAt (pl : List Byte) (i n : Nat) : Nat := beNat ((pl.drop i).take n)

/-! ## Reading request fields: a byte that names no defined choice gives none -/

/-- A number below `n`, as an index. -/
def indexBelow (n x : Nat) : Option (Fin n) := if h : x < n then some ⟨x, h⟩ else none

/-- A handle: 64 to 255 are out of range. -/
def readHandle (b : Byte) : Option HandleId := indexBelow 64 b.toNat

/-- A port: 4 to 255 are out of range. -/
def readPort (b : Byte) : Option PortId := indexBelow 4 b.toNat

/-- A group: 8 to 255 are out of range. -/
def readGroup (b : Byte) : Option GroupId := indexBelow 8 b.toNat

/-- A tally: every byte names one. -/
def readTally (b : Byte) : TallyId := ⟨b.toNat, b.isLt⟩

/-- A weight: 0 is out of range (R28). -/
def readWeight (n : Nat) : Option Nat := if n = 0 then none else some n

/-- A kind. -/
def readKind (b : Byte) : Option Kind :=
  match b.toNat with
  | 0 => some .sumU
  | 1 => some .sumS
  | 2 => some .peak
  | _ => none

/-- An overflow policy. -/
def readPolicy (b : Byte) : Option OverflowPolicy :=
  match b.toNat with
  | 0 => some .saturate
  | 1 => some .freeze
  | _ => none

/-- A ring policy. -/
def readRingPolicy (b : Byte) : Option RingPolicy :=
  match b.toNat with
  | 0 => some .hold
  | 1 => some .discardOldest
  | _ => none

/-- A yes/no field. -/
def readBool (b : Byte) : Option Bool :=
  match b.toNat with
  | 0 => some false
  | 1 => some true
  | _ => none

/-- Which limit. -/
def readSide (b : Byte) : Option Side :=
  match b.toNat with
  | 0 => some .upper
  | 1 => some .lower
  | _ => none

/-- The operations of SET_LIMIT (R129). -/
inductive LimitOp where
  | set | remove | report
  deriving DecidableEq, Repr

/-- A SET_LIMIT operation. -/
def readLimitOp (b : Byte) : Option LimitOp :=
  match b.toNat with
  | 0 => some .set
  | 1 => some .remove
  | 2 => some .report
  | _ => none

/-- Rights: bits 4 to 7 must be 0. -/
def readRights (b : Byte) : Option Rights :=
  if b.toNat < 16 then some ⟨b.getLsbD 0, b.getLsbD 1, b.getLsbD 2, b.getLsbD 3⟩ else none

/-- A mask: bits 3 to 7 must be 0. -/
def readMask (b : Byte) : Option Mask :=
  if b.toNat < 8 then some ⟨b.getLsbD 0, b.getLsbD 1, b.getLsbD 2⟩ else none

/-- A value or level from a host: plus or minus, then a magnitude; minus 0 stands for 0 (R73). -/
def readSigned (sign : Byte) (magnitude : Nat) : Option Int :=
  match sign.toNat with
  | 0 => some (magnitude : Int)
  | 1 => some (-(magnitude : Int))
  | _ => none

/-- A quantity: 32 bits in two's complement (R42). -/
def readQuantity (n : Nat) : BitVec 32 := BitVec.ofNat 32 n

/-- An interval number. -/
def readInterval (n : Nat) : Interval := BitVec.ofNat 32 n

/-! ## Writing response fields -/

/-- A number in one byte. -/
def byteOf (n : Nat) : Byte := BitVec.ofNat 8 n

/-- A yes/no or set/clear field. -/
def boolByte (b : Bool) : Byte := if b then 1 else 0

/-- A port, or FFH for absent or vacant. -/
def portByte : Option PortId → Byte
  | none => 0xFF
  | some p => byteOf p.val

/-- A tally index. -/
def tallyByte (t : TallyId) : Byte := byteOf t.val

/-- A group number. -/
def groupByte (g : GroupId) : Byte := byteOf g.val

/-- A handle. -/
def handleByte (h : HandleId) : Byte := byteOf h.val

/-- A kind. -/
def Kind.code : Kind → Byte
  | .sumU => 0
  | .sumS => 1
  | .peak => 2

/-- A tally state. -/
def TallyState.code : TallyState → Byte
  | .free => 0
  | .live => 1
  | .frozen => 2

/-- An overflow policy. -/
def OverflowPolicy.code : OverflowPolicy → Byte
  | .saturate => 0
  | .freeze => 1

/-- A ring policy. -/
def RingPolicy.code : RingPolicy → Byte
  | .hold => 0
  | .discardOldest => 1

/-- A group state. -/
def GroupState.code : GroupState → Byte
  | .opened => 0
  | .closing => 1

/-- A snapshot state. -/
def RecordState.code : RecordState → Byte
  | .filling => 0
  | .ready => 1

/-- A cause. -/
def Cause.code : Cause → Byte
  | .manual => 0
  | .timed => 1

/-- A trip state. -/
def Trip.code : Trip → Byte
  | .armed => 0
  | .tripped => 1

/-- Which limit, and the upper/lower detail. -/
def Side.code : Side → Byte
  | .upper => 0
  | .lower => 1

/-- An event class; a greater code is a higher class. -/
def EventClass.code : EventClass → Byte
  | .notice => 0
  | .interval => 1
  | .fault => 2

/-- An event kind. -/
def EventKind.code : EventKind → Byte
  | .tallyFrozen => 0
  | .snapshotLost => 1
  | .contribRefused => 2
  | .queueOverflow => 3
  | .snapshotReady => 4
  | .closeMissed => 5
  | .limitReached => 6
  | .limitCleared => 7
  | .adminVacant => 8

/-- A CONTRIB_REFUSED reason. -/
def RefusedReason.code : RefusedReason → Nat
  | .frozen => 0
  | .negative => 1
  | .overflow => 2

/-- A CLOSE_MISSED reason. -/
def MissedReason.code : MissedReason → Nat
  | .closing => 0
  | .ringFull => 1
  | .noSpace => 2

/-- A response status code, also a POST entry status. -/
def Status.code : Status → Byte
  | .ok => 0x00
  | .accepted => 0x01
  | .partly => 0x02
  | .busy => 0x03
  | .full => 0x04
  | .noSpace => 0x05
  | .ringFull => 0x06
  | .noHandle => 0x07
  | .noTally => 0x08
  | .noRight => 0x09
  | .notAdmin => 0x0A
  | .notVacant => 0x0B
  | .inUse => 0x0C
  | .already => 0x0D
  | .mismatch => 0x0E
  | .stale => 0x0F
  | .notHeld => 0x10
  | .notReady => 0x11
  | .badKind => 0x12
  | .badArg => 0x13
  | .unknown => 0x14
  | .offline => 0x15
  | .none => 0x16
  | .nothingInService => 0x17

/-- Rights: bit 0 POST, bit 1 READ, bit 2 DRAW, bit 3 WATCH. -/
def Rights.code (r : Rights) : Byte :=
  byteOf (r.post.toNat + 2 * r.read.toNat + 4 * r.draw.toNat + 8 * r.watch.toNat)

/-- Mask: bit 0 FAULT, bit 1 INTERVAL, bit 2 NOTICE. -/
def Mask.code (m : Mask) : Byte := byteOf (m.fault.toNat + 2 * m.interval.toNat + 4 * m.notice.toNat)

/-- A value or level: sign (absent, minus only with a non-zero magnitude, plus) and magnitude. -/
def valueBytes : Option Int → List Byte
  | none => 2 :: beBytes 8 0
  | some v => (if v < 0 then 1 else 0) :: beBytes 8 v.natAbs

/-- An interval number or tag. -/
def intervalBytes (n : Interval) : List Byte := beBytes 4 n.toNat

/-- A limit in 15 bytes; an absent one is all 00H. -/
def limitBytes : Option Limit → List Byte
  | none => List.replicate 15 0
  | some l => 1 :: valueBytes (some l.level) ++ beBytes 4 l.hyst ++ [l.trip.code]

/-- Subject type and number. -/
def Subject.bytes : Subject → List Byte
  | .none => [0, 0]
  | .tally t => [1, tallyByte t]
  | .group g => [2, groupByte g]

/-- The detail as a number (R170). -/
def Detail.code : Detail → Nat
  | .none => 0
  | .interval n => n.toNat
  | .side d => d.code.toNat
  | .refused r => r.code
  | .missed r => r.code
  | .port p => p.val

end Sys2Proof.Machine
end

