-- ==== Sys2Proof/WellFormed.lean ====
section
/-! DEFINITION. Which commands spell their own row. The machine gives every command a meaning, the
ill-formed ones too (log entry 10); a well-formed one is what its mnemonic says. -/

namespace Sys2Proof

/-- The three type bytes of R167: STATUS, REQUEST, FETCH. -/
def typeByteKnown (ty : Byte) : Bool := ty == 0x3C#8 || ty == 0x5A#8 || ty == 0xA5#8

/-- The 27 request codes of R168, 01H to 1BH. -/
def requestCodeKnown (code : Byte) : Bool := 1 ≤ code.toNat && code.toNat ≤ 27

/-- A frame's payload is 0 to 120 bytes (section 9.3). -/
def payloadFits (pl : List Byte) : Bool := pl.length ≤ Config.maxPayload

/-- The operands are those of the command's row. -/
def Instr.wellFormed : Instr → Bool
  | .status _ _ _ | .fetch _ _ _ | .frameRefused _ _ _ | .abandonedTransactionEnd _ _ => true
  | .unknownType _ ty _ _ => !typeByteKnown ty
  | .unknownRequest _ _ code pl => !requestCodeKnown code && payloadFits pl
  | .helloOpenSession _ | .sessionEndViews _ | .sessionEndReaders _ | .sessionEndTallyAdmin _
  | .sessionEndGroupAdmin _ | .sessionEndEvents _ => true
  | .hello _ _ ⟨pl, _⟩ | .leave _ _ pl | .setMask _ _ pl | .takeEvent _ _ pl | .ackEvent _ _ pl
  | .define _ _ pl | .retire _ _ pl | .grant _ _ pl | .freeze _ _ pl | .resume _ _ pl
  | .claimTally _ _ pl | .setLimit _ _ pl | .bind _ _ pl | .unbind _ _ pl | .drain _ _ pl
  | .read _ _ pl | .take _ _ pl | .exchange _ _ pl | .clearFlags _ _ pl | .claimGroup _ _ pl
  | .setGroup _ _ pl | .close _ _ pl | .groupStatus _ _ pl | .snapList _ _ pl | .readSnap _ _ pl
  | .release _ _ pl => payloadFits pl
  | .post _ _ pl part => payloadFits pl && (part != .entry || pl.isEmpty)
  | .apply | .tick | .timedCloseAttempt _ | .copierStep _ | .closeEnd _
  | .prstAssert _ | .prstRelease _ | .resetAssert | .resetRelease => true
  | .transactionWithoutType _ si => si.bits.length < 8

end Sys2Proof
end

