-- ==== Sys2Proof/Machine/Frame.lean ====
section
/-! DEFINITION. Bits and bytes of the link: the check byte, request frames, responses, the status byte
and the type bytes (R151 to R154, R158, R167 to R169). -/

namespace Sys2Proof.Machine

/-! ## Bits: every byte passes most significant bit first (R151) -/

/-- The bits of a byte in the order they pass. -/
def byteBits (b : Byte) : List Bool := (List.range 8).map b.getMsbD

/-- The bits of some bytes in the order they pass. -/
def bytesBits (bs : List Byte) : List Bool := bs.flatMap byteBits

/-- The byte that bits spell, the first the most significant. -/
def bitsByte (bits : List Bool) : Byte := BitVec.ofNat 8 (bits.foldl (fun n b => 2 * n + b.toNat) 0)

/-- Bits as whole bytes; none when their number is not a multiple of eight. -/
def bitsToBytes : List Bool → Option (List Byte)
  | [] => some []
  | a :: b :: c :: d :: e :: f :: g :: h :: rest =>
    (bitsToBytes rest).map (bitsByte [a, b, c, d, e, f, g, h] :: ·)
  | _ => none

/-- Bit `i` of a stream of bytes; past its end the filler byte 00H is shifted out (R167). -/
def streamBit (bs : List Byte) (i : Nat) : Bool := (bs.getD (i / 8) 0).getMsbD (i % 8)

/-- `n` bits of a stream from bit `i` on. -/
def streamBits (bs : List Byte) (i n : Nat) : List Bool := (List.range n).map fun k => streamBit bs (i + k)

/-- `n` bits of one byte sent over and over, from bit `i` on. -/
def repeatBits (b : Byte) (i n : Nat) : List Bool := (List.range n).map fun k => b.getMsbD ((i + k) % 8)

/-! ## The check byte (R153) -/

/-- One shift of the CRC register with polynomial x^8 + x^2 + x + 1. -/
def crcShift (c : Byte) : Byte := if c.msb then (c <<< 1) ^^^ 0x07 else c <<< 1

/-- The register after one byte: exclusive or, then eight shifts (section 10.5). -/
def crcByte (c b : Byte) : Byte :=
  crcShift (crcShift (crcShift (crcShift (crcShift (crcShift (crcShift (crcShift (c ^^^ b))))))))

/-- The check byte over some bytes, from the initial value FFH. -/
def crc8 (bs : List Byte) : Byte := bs.foldl crcByte 0xFF

/-! ## Transaction types (R151, R167) -/

/-- The STATUS type byte. -/
def typeStatus : Byte := 0x3C

/-- The REQUEST type byte. -/
def typeRequest : Byte := 0x5A

/-- The FETCH type byte. -/
def typeFetch : Byte := 0xA5

/-! ## Request frames (section 9.3, R154, R167) -/

/-- A whole frame with a correct check: tag, request code, payload. -/
structure Frame where
  tag : Byte
  code : Byte
  payload : List Byte
  deriving DecidableEq, Repr

/-- The bytes the check byte of a frame covers: header and payload. -/
def Frame.covered (f : Frame) : List Byte := f.tag :: f.code :: byteOf f.payload.length :: f.payload

/-- The bytes of a frame after its type byte. -/
def Frame.bytes (f : Frame) : List Byte := f.covered ++ [crc8 f.covered]

/-- The LENGTH test and then the CHECK test of R154 on the bits after the type byte. -/
def parseFrame (rx : List Bool) : Except LinkReason Frame :=
  match bitsToBytes rx with
  | some (tag :: code :: len :: rest) =>
    if len.toNat ≤ Config.maxPayload ∧ rest.length = len.toNat + 1 then
      let f : Frame := ⟨tag, code, rest.dropLast⟩
      if rest.getLast? = some (crc8 (tag :: code :: len :: rest.dropLast)) then .ok f else .error .check
    else .error .length
  | _ => .error .length

/-- A frame whose sender declares the payload's length and computes the check: it fails LENGTH exactly
when its payload is longer than a frame may carry. -/
def wholeFrame (f : Frame) : Except LinkReason Frame :=
  if payloadFits f.payload then .ok f else .error .length

/-! ## Request codes and payload lengths (R168, R169) -/

/-- The request code. -/
def reqCode : Req → Byte
  | .hello => 0x01
  | .leave => 0x02
  | .setMask => 0x03
  | .takeEvent => 0x04
  | .ackEvent => 0x05
  | .define => 0x06
  | .retire => 0x07
  | .grant => 0x08
  | .freeze => 0x09
  | .resume => 0x0A
  | .claimTally => 0x0B
  | .setLimit => 0x0C
  | .bind => 0x0D
  | .unbind => 0x0E
  | .post => 0x0F
  | .drain => 0x10
  | .read => 0x11
  | .take => 0x12
  | .exchange => 0x13
  | .clearFlags => 0x14
  | .claimGroup => 0x15
  | .setGroup => 0x16
  | .close => 0x17
  | .groupStatus => 0x18
  | .snapList => 0x19
  | .readSnap => 0x1A
  | .release => 0x1B

/-- The 27 requests, by rising code. -/
def allReqs : List Req :=
  [.hello, .leave, .setMask, .takeEvent, .ackEvent, .define, .retire, .grant, .freeze, .resume,
   .claimTally, .setLimit, .bind, .unbind, .post, .drain, .read, .take, .exchange, .clearFlags,
   .claimGroup, .setGroup, .close, .groupStatus, .snapList, .readSnap, .release]

/-- The request a code names; 00H and 1CH to FFH name none. -/
def reqOfCode (c : Byte) : Option Req := allReqs.find? fun r => reqCode r == c

/-- The payload length of a request of fixed size; POST has none. -/
def payloadLength : Req → Option Nat
  | .hello | .leave | .takeEvent | .ackEvent | .drain => some 0
  | .setMask | .retire | .freeze | .resume | .claimTally | .unbind | .read | .take => some 1
  | .claimGroup | .close | .groupStatus | .snapList => some 1
  | .clearFlags => some 2
  | .grant => some 3
  | .define | .bind | .setGroup => some 4
  | .release => some 5
  | .readSnap => some 7
  | .setLimit => some 16
  | .exchange => some 19
  | .post => none

/-- A POST carries an entry count n of 1 to 8 and exactly n entries of five bytes (R42, R169). -/
def postLengthOk (pl : List Byte) : Bool :=
  let n := (byteAt pl 0).toNat
  1 ≤ n && n ≤ 8 && pl.length == 1 + 5 * n

/-- The payload length is one the request accepts (R157, step 3). -/
def accepts (r : Req) (pl : List Byte) : Bool :=
  match payloadLength r with
  | some n => pl.length == n
  | none => postLengthOk pl

/-! ## Responses and the status byte -/

/-- The bytes the check byte of a response covers (R158). -/
def Response.covered (r : Response) : List Byte :=
  r.tag :: r.status.code :: r.session :: byteOf r.payload.length :: r.payload

/-- A response as FETCH shifts it out, from its tag to its check byte (R158, R167). -/
def Response.bytes (r : Response) : List Byte := r.covered ++ [crc8 r.covered]

/-- What a FETCH shifts out: the response, or the zero-length marker (R158, R167). -/
def fetchStream : Option Response → List Byte
  | some r => r.bytes
  | none => [0xFF, 0xFF]

/-- Every byte of the settled response, check byte included, is clocked with all eight bits (R159). -/
def fetchComplete (settled : Option Response) (bits : Nat) : Bool :=
  match settled with
  | some r => 8 * r.bytes.length ≤ bits
  | none => false

/-- The slot's state code, bits 7 and 6 of the status byte. -/
def Slot.code : Slot → Nat
  | .empty => 0
  | .working _ => 1
  | .ready _ => 2

/-- The refusal reason's code, bits 3 to 1 of the status byte. -/
def LinkReason.code : LinkReason → Nat
  | .none => 0
  | .busy => 1
  | .check => 2
  | .length => 3
  | .type => 4

/-- The port status byte formed from a port's present state (R152, R167). -/
def Port.statusByte (x : Port) : Byte :=
  byteOf (64 * x.slot.code + 32 * (x.session == .online).toNat + 16 * x.alert.toNat + 2 * x.reason.code)

/-- The response a FETCH that begins now will shift out (R158). -/
def Slot.settled : Slot → Option Response
  | .ready r => some r
  | _ => none

end Sys2Proof.Machine
end

