-- ==== Sys2Proof/Machine/Ops.lean ====
section
/-! DEFINITION. Named operations on the state: reads and writes of each table, postings, bindings,
evaluations, the copy step, removal of records, answers. -/

namespace Sys2Proof.Machine

/-- A table given entry by entry. -/
def tabulate {α : Type} {n : Nat} (f : Fin n → α) : Vector α n :=
  ⟨((List.finRange n).map f).toArray, by simp⟩

/-! ## Reading and writing the tables -/

/-- The record of tally `t`. -/
def State.tally (s : State) (t : TallyId) : Tally := s.tallies[t]

/-- All that belongs to port `p`. -/
def State.port (s : State) (p : PortId) : Port := s.ports[p]

/-- The record of group `g`. -/
def State.group (s : State) (g : GroupId) : Group := s.groups[g]

/-- The ring of group `g`, oldest record first. -/
def State.ring (s : State) (g : GroupId) : List SnapRecord := s.rings[g]

/-- Write one tally record. -/
def State.setTally (s : State) (t : TallyId) (x : Tally) : State := { s with tallies := s.tallies.set t x }

/-- Write one port; ALERTn# takes the level the new state gives, within the same action (R146). -/
def State.setPort (s : State) (p : PortId) (x : Port) : State := { s with ports := s.ports.set p x.driveAlert }

/-- Write one group record. -/
def State.setGroup (s : State) (g : GroupId) (x : Group) : State := { s with groups := s.groups.set g x }

/-- Write one ring. -/
def State.setRing (s : State) (g : GroupId) (r : List SnapRecord) : State := { s with rings := s.rings.set g r }

/-- Change every tally record in one action. -/
def State.mapTallies (s : State) (f : TallyId → Tally → Tally) : State :=
  { s with tallies := tabulate fun t => f t (s.tally t) }

/-- One more free value drawn. -/
def State.draw (s : State) : State := { s with draws := s.draws + 1 }

/-- Nothing internal happens while RESET# is asserted (R166). -/
def State.unlessReset (s : State) (f : State → State) : State := if s.resetPin then s else f s

/-! ## Views (R25, R36) -/

/-- The entry under handle `h` of port `p`. -/
def State.viewEntry (s : State) (p : PortId) (h : HandleId) : Option ViewEntry := (s.port p).view[h]

/-- Write the entry under handle `h` of port `p`. -/
def State.setView (s : State) (p : PortId) (h : HandleId) (e : Option ViewEntry) : State :=
  s.setPort p { s.port p with view := (s.port p).view.set h e }

/-- The entry names the tally. -/
def entryNames (t : TallyId) : Option ViewEntry → Bool
  | some e => e.tally == t
  | none => false

/-- Port `p` holds a binding to tally `t` (R36). -/
def State.bound (s : State) (p : PortId) (t : TallyId) : Bool := (s.port p).view.toList.any (entryNames t)

/-- How many entries of port `p` name tally `t`. -/
def State.entriesNaming (s : State) (p : PortId) (t : TallyId) : Nat :=
  (s.port p).view.toList.countP (entryNames t)

/-- The rights of port `p` on tally `t` (R10). -/
def State.rightsOf (s : State) (p : PortId) (t : TallyId) : Rights := (s.tally t).rights[p]

/-- The ports that hold a binding to the tally and the WATCH right on it (R36). -/
def State.watchers (s : State) (t : TallyId) : List PortId :=
  (List.finRange 4).filter fun p => s.bound p t && (s.rightsOf p t).watch

/-! ## Postings (R136, R137) -/

/-- One posting to one port; a posting to an OFFLINE port is discarded. -/
def State.post (s : State) (p : PortId) (k : EventKind) (u : Subject) (d : Detail) : State :=
  match (s.port p).session with
  | .offline => s
  | .online => s.setPort p { s.port p with events := (s.port p).events.post k u d }

/-- The same event posted to several ports, each block by itself. -/
def State.postTo (s : State) (ps : List PortId) (k : EventKind) (u : Subject) (d : Detail) : State :=
  ps.foldl (fun s p => s.post p k u d) s

/-- Each move of a trip state posts its event to the watchers, in order (R128). -/
def State.postMoves (s : State) (t : TallyId) (ps : List PortId) (moves : List (EventKind × Side)) : State :=
  moves.foldl (fun s m => s.postTo ps m.1 (.tally t) (.side m.2)) s

/-- An evaluation with events against the value just stored (R125, R128). -/
def State.evaluateWithEvents (s : State) (t : TallyId) : State :=
  (s.setTally t (s.tally t).evaluate).postMoves t (s.watchers t) (s.tally t).limitMoves

/-! ## Members, owing and the copy step (R5, R80, R95) -/

/-- The defined tallies of a group, ascending (R88). -/
def State.membersOf (s : State) (g : GroupId) : List TallyId :=
  (List.finRange 256).filter fun t => (s.tally t).defined && (s.tally t).group == g

/-- A defined tally is owed when its tag differs from its group's interval number (R5). -/
def State.owed (s : State) (t : TallyId) : Bool :=
  (s.tally t).defined && (s.tally t).tag != (s.group (s.tally t).group).interval

/-- The cell a member's closing values fill (R95, R107). -/
def Tally.closingCell (x : Tally) : SnapCell := ⟨x.value, x.count, x.overflow, x.state == .frozen⟩

/-- A FILLING record takes a member's cell, at the member's place in the list (R107). -/
def SnapRecord.writeCell (r : SnapRecord) (t : TallyId) (c : SnapCell) : SnapRecord :=
  if r.state = .filling ∧ t ∈ r.members then { r with cells := r.cells.set (r.members.idxOf t) (some c) } else r

/-- The copy step of an owed member: its cell is written and it starts the group's present interval, in
one action (R95). -/
def State.copyStep (s : State) (t : TallyId) : State :=
  let x := s.tally t
  (s.setRing x.group ((s.ring x.group).map fun r => r.writeCell t x.closingCell)).setTally t
    (x.startInterval (s.group x.group).interval)

/-- An action that reaches an owed member performs its copy step first (R96). -/
def State.touch (s : State) (t : TallyId) : State := if s.owed t then s.copyStep t else s

/-! ## The pool and the rings (R104, R105) -/

/-- The cells a list of records holds. -/
def cellsHeld (rs : List SnapRecord) : Nat := (rs.map fun r => r.members.length).sum

/-- Records leave a ring and their cells are freed together (R104). -/
def State.removeRecords (s : State) (g : GroupId) (gone : SnapRecord → Bool) : State :=
  { s.setRing g ((s.ring g).filter fun r => !gone r) with
    freeCells := s.freeCells + cellsHeld ((s.ring g).filter gone) }

/-- The record of a ring that carries an interval number (R105). -/
def State.findRecord (s : State) (g : GroupId) (n : Interval) : Option SnapRecord :=
  (s.ring g).find? (·.interval == n)

/-- A port leaves the reader set of a record; a FILLING record whose set empties is marked discard
pending (R108). A record the port does not read stays as it is. -/
def SnapRecord.withoutReader (r : SnapRecord) (p : PortId) : SnapRecord :=
  if p ∈ r.readers then
    let rest := r.readers.filter (· ≠ p)
    { r with readers := rest, discard := r.discard || (r.state == .filling && rest.isEmpty) }
  else r

/-- The record is to be removed once `p` has left it: READY, with `p` its last reader (R108). -/
def SnapRecord.freedBy (r : SnapRecord) (p : PortId) : Bool :=
  r.state == .ready && r.readers.contains p && (r.readers.filter (· ≠ p)).isEmpty

/-! ## Answers (R157, R158, R160) -/

/-- A status and payload to be sent back. -/
structure Answer where
  status : Status
  payload : List Byte
  deriving DecidableEq, Repr

/-- What acting on a request gives: the state, and the answer unless the request goes on waiting. -/
abbrev Reply := State × Option Answer

/-- The response becomes READY, with the port's session number at that moment (R158). -/
def State.respond (s : State) (p : PortId) (tag : Byte) (a : Answer) : State :=
  s.setPort p { s.port p with slot := .ready ⟨tag, a.status, (s.port p).number, a.payload⟩ }

/-- Answer with a payload. -/
def State.reply (s : State) (st : Status) (payload : List Byte) : Reply := (s, some ⟨st, payload⟩)

/-- A refusal without a payload; nothing else happens. -/
def State.deny (s : State) (st : Status) : Reply := (s, some ⟨st, []⟩)

/-- The handle's range and its binding are checked first (R32, steps 1 and 2). -/
def State.onHandle (s : State) (p : PortId) (h : Option HandleId)
    (act : HandleId → ViewEntry → Reply) : Reply :=
  match h with
  | none => s.deny .badArg
  | some h =>
    match s.viewEntry p h with
    | none => s.deny .noHandle
    | some e => act h e

/-- The administrator role is checked; a vacant role counts as another port (R15, step 3). -/
def State.asTallyAdmin (s : State) (p : PortId) (t : TallyId) (r : Reply) : Reply :=
  if (s.tally t).admin = some p then r else s.deny .notAdmin

end Sys2Proof.Machine
end

