-- ==== Sys2Proof/Machine/Pins.lean ====
section
/-! DEFINITION. The reset pins: PRSTn# (R165) and RESET# (R166). -/

namespace Sys2Proof.Machine

/-- A transaction in progress is abandoned (R155). -/
def LinkState.cut : LinkState → LinkState
  | .idle => .idle
  | _ => .abandoned

/-- What the fall of PRSTn# does to a port: the transaction is abandoned, the slot loses its content, and
an ONLINE port's session end begins unless one is in progress (R165). -/
def Port.portReset (x : Port) : Port :=
  match x.session with
  | .offline => { x with prst := true, link := x.link.cut, slot := .empty }
  | .online =>
    { x with
      prst := true
      link := x.link.cut
      slot := .working .portReset
      sessionEnd := match x.sessionEnd with
        | none => some .views
        | some step => some step }

/-- PRSTn# falls. Under RESET# only the pin's level is noted; a pin already low cannot fall (log
entry 12). -/
def State.assertPrst (s : State) (p : PortId) : State :=
  let x := s.port p
  if s.resetPin then s.setPort p { x with prst := true }
  else if x.prst then s
  else s.setPort p x.portReset

/-- PRSTn# rises: the port is left as it stands, a session end in progress runs on (R165). -/
def State.releasePrst (s : State) (p : PortId) : State := s.setPort p { s.port p with prst := false }

/-- A port under RESET#: its reset values, its PRSTn# as the system drives it, a transaction in progress
abandoned (R166). -/
def Port.deviceReset (x : Port) : Port := { Port.atReset with prst := x.prst, link := x.link.cut }

/-- RESET# falls: every block returns to its reset values (R24, R40, R51, R81, R121, R149, R166). The queue
of commands and the count of free values are the model's own and stay. -/
def State.assertReset (s : State) : State :=
  { State.reset with
    ports := tabulate fun p => (s.port p).deviceReset
    resetPin := true
    draws := s.draws
    pending := s.pending }

/-- RESET# rises (R166). -/
def State.releaseReset (s : State) : State := { s with resetPin := false }

end Sys2Proof.Machine
end

