-- ==== Sys2Proof/Machine/Contributions.lean ====
section
/-! DEFINITION. The contribution path: the accumulate unit and its arbiter, POST and DRAIN
(chapter 3). -/

namespace Sys2Proof.Machine

/-! ## The arithmetic of an apply (R55 to R61) -/

/-- How the kind's rule takes a product at a tally that is not FROZEN (R54, step 3). -/
inductive ApplyOutcome where
  | applied | rejected | overflowed
  deriving DecidableEq, Repr

/-- SUM_U: a negative product is rejected, a sum past 2^64-1 wraps (R57). -/
def Tally.applySumU (x : Tally) (v p : Int) : Tally × ApplyOutcome :=
  if p < 0 then (x.noteRejected, .rejected)
  else if maxUnsigned < v + p then ({ x with value := some (v + p - 2 ^ 64) }.noteRollover, .applied)
  else ({ x with value := some (v + p) }, .applied)

/-- SUM_S: an out-of-range sum is clamped, or refused with the tally frozen (R58, R59, R60). -/
def Tally.applySumS (x : Tally) (v p : Int) : Tally × ApplyOutcome :=
  if minSigned ≤ v + p ∧ v + p ≤ maxSigned then ({ x with value := some (v + p) }, .applied)
  else match x.policy with
    | .saturate =>
      ({ x with value := some (if maxSigned < v + p then maxSigned else minSigned) }.noteOverflow, .applied)
    | .freeze => ({ x with state := .frozen }.noteOverflow, .overflowed)

/-- PEAK: the greater of the value and the product, or the product when absent (R61). -/
def Tally.applyPeak (x : Tally) (p : Int) : Tally × ApplyOutcome :=
  match x.value with
  | none => ({ x with value := some p }, .applied)
  | some v => ({ x with value := some (max v p) }, .applied)

/-- The product applied by the tally's kind. A SUM tally always has a value (R2). -/
def Tally.applyProduct (x : Tally) (p : Int) : Tally × ApplyOutcome :=
  match x.kind with
  | .sumU => x.applySumU (x.value.getD 0) p
  | .sumS => x.applySumS (x.value.getD 0) p
  | .peak => x.applyPeak p

/-- Steps 1 and 2 of a successful apply: the count and the last contributor (R62). -/
def Tally.noteApplied (x : Tally) (q : PortId) : Tally :=
  { x with count := saturate (2 ^ 32 - 1) x.count, last := some q }

/-- The product of an entry, formed exactly (R55). -/
def Staged.product (e : Staged) : Int := e.quantity * e.weight

/-! ## One apply (R54) -/

/-- CONTRIB_REFUSED to the posting port (R63). -/
def State.postRefused (s : State) (e : Staged) (r : RefusedReason) : State :=
  s.post e.port .contribRefused (.tally e.tally) (.refused r)

/-- The ports TALLY_FROZEN goes to: the administrator and the watchers, each once (R60). -/
def State.frozenRecipients (s : State) (t : TallyId) : List PortId :=
  (List.finRange 4).filter fun q => (s.tally t).admin == some q || (s.watchers t).contains q

/-- Steps 1 to 4 of an apply: the copy step owed, the FROZEN test, the product by kind, and the effects
and events that follow (R54, R56 to R63). -/
def State.applyContribution (s : State) (e : Staged) : State :=
  let s := s.touch e.tally
  let x := s.tally e.tally
  if x.state = .frozen then (s.setTally e.tally x.noteDropped).postRefused e .frozen
  else
    let r := x.applyProduct e.product
    match r.2 with
    | .applied => (s.setTally e.tally (r.1.noteApplied e.port)).evaluateWithEvents e.tally
    | .rejected => (s.setTally e.tally r.1).postRefused e .negative
    | .overflowed =>
      ((s.setTally e.tally r.1).postRefused e .overflow).postTo (s.frozenRecipients e.tally)
        .tallyFrozen (.tally e.tally) .none

/-- A DRAIN that waits on a FIFO now empty becomes READY (R64). -/
def State.drainDone (s : State) (q : PortId) : State :=
  match (s.port q).slot, (s.port q).fifo with
  | .working (.drain tag), [] => s.respond q tag ⟨.ok, []⟩
  | _, _ => s

/-- Step 5 of an apply: the entry leaves the head of its FIFO and the staged count falls (R54). -/
def State.leaveFifo (s : State) (q : PortId) (e : Staged) (rest : List Staged) : State :=
  let s := s.setPort q { s.port q with fifo := rest }
  s.setTally e.tally { s.tally e.tally with stagedCount := (s.tally e.tally).stagedCount - 1 }

/-- The apply of the head entry of the FIFO of port `q`, and the pointer's move past `q` (R52, R54). -/
def State.serve (s : State) (q : PortId) (e : Staged) (rest : List Staged) : State :=
  let s := ((s.applyContribution e).leaveFifo q e rest).drainDone q
  { s with pointer := q + 1 }

/-- The port the arbiter grants: from the pointer on, the first whose FIFO holds an entry (R52). -/
def State.granted (s : State) : Option PortId :=
  [s.pointer, s.pointer + 1, s.pointer + 2, s.pointer + 3].find? fun q => !(s.port q).fifo.isEmpty

/-- One grant and the apply it starts; nothing when every FIFO is empty (R52, R54). -/
def State.applyNext (s : State) : State :=
  match s.granted with
  | none => s
  | some q =>
    match (s.port q).fifo with
    | [] => s
    | e :: rest => s.serve q e rest

/-! ## POST (R42 to R46) -/

/-- The entries of a POST payload: handle byte and quantity (R169). -/
def postEntries (pl : List Byte) : List (Byte × BitVec 32) :=
  (List.range (byteAt pl 0).toNat).map fun i => (byteAt pl (1 + 5 * i), readQuantity (fieldAt pl (2 + 5 * i) 4))

/-- The checks of one entry: range, binding, POST right (R43). -/
def State.checkEntry (s : State) (p : PortId) (h : Byte) : Except Status ViewEntry :=
  match readHandle h with
  | none => .error .badArg
  | some h =>
    match s.viewEntry p h with
    | none => .error .noHandle
    | some e => if (s.rightsOf p e.tally).post then .ok e else .error .noRight

/-- A contribution joins the back of the FIFO, and the tally's staged count rises with it (R44, R48). -/
def State.stage (s : State) (p : PortId) (e : Staged) : State :=
  let s := s.setPort p { s.port p with fifo := (s.port p).fifo ++ [e] }
  s.setTally e.tally { s.tally e.tally with stagedCount := (s.tally e.tally).stagedCount + 1 }

/-- The examination of one entry, checks first and then the room in the FIFO (R43, R44). -/
def State.examineEntry (s : State) (p : PortId) (h : Byte) (q : BitVec 32) : State × Status :=
  match s.checkEntry p h with
  | .error st => (s, st)
  | .ok e =>
    if (s.port p).fifo.length < Config.fifoPlaces then (s.stage p ⟨e.tally, e.weight, q.toInt, p⟩, .ok)
    else (s, .full)

/-- The entries in turn; from the first FULL on every entry is FULL, unexamined (R44). -/
def State.postLoop (s : State) (p : PortId) : List (Byte × BitVec 32) → State × List Status
  | [] => (s, [])
  | (h, q) :: rest =>
    let r := s.examineEntry p h q
    if r.2 = .full then (r.1, .full :: rest.map fun _ => .full)
    else
      let l := r.1.postLoop p rest
      (l.1, r.2 :: l.2)

/-- The answer to a POST whose entries have the statuses `sts` (R45). -/
def State.postAnswer (s : State) (p : PortId) (sts : List Status) : Answer :=
  ⟨if sts.all (· == .ok) then .ok else .partly,
    byteOf (sts.countP (· == .ok)) :: sts.map Status.code ++ [byteOf (Config.fifoPlaces - (s.port p).fifo.length)]⟩

/-- POST(entry count, entries), every entry examined (R42, R45). -/
def actPost (s : State) (p : PortId) (_tag : Byte) (pl : List Byte) : Reply :=
  let r := s.postLoop p (postEntries pl)
  (r.1, some (r.1.postAnswer p r.2))

/-- POST, its frame taken and its entries left to wait (R43, log entry 11). -/
def actPostTaken (s : State) (p : PortId) (tag : Byte) (pl : List Byte) : Reply :=
  (s.setPort p { s.port p with posting := some ⟨tag, postEntries pl, []⟩ }, none)

/-- The POST in progress after its entries have the statuses `sts`, with `rest` to come: it goes on, or its
response becomes READY; after a port reset no response is formed (R45, R165). -/
def State.postProgress (s : State) (p : PortId) (w : PostWork) (rest : List (Byte × BitVec 32))
    (sts : List Status) : State :=
  match rest with
  | _ :: _ => s.setPort p { s.port p with posting := some ⟨w.tag, rest, sts⟩ }
  | [] =>
    let s := s.setPort p { s.port p with posting := none }
    if (s.port p).slot = .working (.request w.tag) then s.respond p w.tag (s.postAnswer p sts) else s

/-- The next entry of the port's POST in progress is examined (R43, R44). -/
def State.postNext (s : State) (p : PortId) : State :=
  match (s.port p).posting with
  | none => s
  | some w =>
    match w.rest with
    | [] => s.postProgress p w [] w.sts
    | (h, q) :: rest =>
      let r := s.examineEntry p h q
      if r.2 = .full then r.1.postProgress p w [] (w.sts ++ .full :: rest.map fun _ => .full)
      else r.1.postProgress p w rest (w.sts ++ [r.2])

/-- DRAIN: READY at once on an empty FIFO, else the slot goes on WORKING (R64). -/
def actDrain (s : State) (p : PortId) (tag : Byte) (_pl : List Byte) : Reply :=
  if (s.port p).fifo.isEmpty then s.reply .ok []
  else (s.setPort p { s.port p with slot := .working (.drain tag) }, none)

end Sys2Proof.Machine
end

