-- ==== Sys2Proof/Machine/Direct.lean ====
section
/-! DEFINITION. Direct access: READ, TAKE, EXCHANGE, CLEAR_FLAGS (chapter 4). -/

namespace Sys2Proof.Machine

/-- Checks 1 to 3 of R66, then the copy step when the tally is owed, then the request (R66, R67). -/
def State.direct (s : State) (p : PortId) (h : Option HandleId) (right : Rights → Bool)
    (act : State → TallyId → Reply) : Reply :=
  s.onHandle p h fun _ e =>
    if right (s.rightsOf p e.tally) then act (s.touch e.tally) e.tally else s.deny .noRight

/-- The READ result (R70, R170). -/
def Tally.readResult (x : Tally) (t : TallyId) : List Byte :=
  [tallyByte t, x.state.code, x.kind.code, groupByte x.group] ++ valueBytes x.value ++ beBytes 4 x.count ++
    [portByte x.last, boolByte x.overflow, byteOf x.rollover, byteOf x.rejected, byteOf x.dropped, x.token] ++
    intervalBytes x.tag ++ [byteOf x.bindCount, byteOf x.stagedCount]

/-- READ(handle) (R70). -/
def actRead (s : State) (p : PortId) (_tag : Byte) (pl : List Byte) : Reply :=
  s.direct p (readHandle (byteAt pl 0)) Rights.read fun s t => s.reply .ok ((s.tally t).readResult t)

/-- The value a TAKE leaves (R71). -/
def Tally.emptyValue (x : Tally) : Option Int :=
  match x.kind with
  | .peak => none
  | _ => some 0

/-- The value of a tally is replaced; a SUM value that changes is evaluated with events (R71, R73, R74). -/
def State.storeValue (s : State) (t : TallyId) (v : Option Int) : State :=
  if v = (s.tally t).value then s
  else (s.setTally t { s.tally t with value := v }).evaluateWithEvents t

/-- TAKE(handle) (R71). -/
def actTake (s : State) (p : PortId) (_tag : Byte) (pl : List Byte) : Reply :=
  s.direct p (readHandle (byteAt pl 0)) Rights.draw fun s t =>
    let x := s.tally t
    (s.storeValue t x.emptyValue).reply .ok (tallyByte t :: valueBytes x.value ++ intervalBytes x.tag)

/-- EXCHANGE(handle, expected value, new value) (R73). -/
def actExchange (s : State) (p : PortId) (_tag : Byte) (pl : List Byte) : Reply :=
  match readSigned (byteAt pl 1) (fieldAt pl 2 8), readSigned (byteAt pl 10) (fieldAt pl 11 8) with
  | some expected, some new =>
    s.direct p (readHandle (byteAt pl 0)) Rights.draw fun s t =>
      let x := s.tally t
      if x.kind = .peak then s.deny .badKind
      else if !x.kind.holds new then s.deny .badArg
      else if x.value = some expected then
        (s.storeValue t (some new)).reply .ok (valueBytes x.value ++ valueBytes (some new))
      else s.reply .mismatch (valueBytes x.value)
  | _, _ => s.deny .badArg

/-- CLEAR_FLAGS(handle, token) (R76). -/
def actClearFlags (s : State) (p : PortId) (_tag : Byte) (pl : List Byte) : Reply :=
  s.direct p (readHandle (byteAt pl 0)) Rights.read fun s t =>
    let x := s.tally t
    if byteAt pl 1 = x.token then (s.setTally t x.clearFlags).reply .ok [x.clearFlags.token]
    else s.reply .stale [x.token, boolByte x.overflow, byteOf x.rollover, byteOf x.rejected, byteOf x.dropped]

end Sys2Proof.Machine
end

