-- ==== Sys2Proof/Machine/EventRequests.lean ====
section
/-! DEFINITION. The event requests SET_MASK, TAKE_EVENT, ACK_EVENT (chapter 8). -/

namespace Sys2Proof.Machine

/-- The event record's fields kind, class, subject (R170). -/
def Event.head (e : Event) : List Byte := [e.kind.code, e.cls.code] ++ e.subject.bytes

/-- The event record (R170). -/
def Event.bytes (e : Event) : List Byte := e.head ++ beBytes 4 e.detail.code ++ [byteOf e.merged]

/-- Queue count, marker occupied, stack depth (R141, R143). -/
def EventBlock.counts (b : EventBlock) : List Byte :=
  [byteOf b.queue.length, boolByte b.marker.isSome, byteOf b.stack.length]

/-- The event block of a port takes a new content. -/
def State.setEvents (s : State) (p : PortId) (b : EventBlock) : State :=
  s.setPort p { s.port p with events := b }

/-- SET_MASK(mask) (R141). -/
def actSetMask (s : State) (p : PortId) (_tag : Byte) (pl : List Byte) : Reply :=
  match readMask (byteAt pl 0) with
  | none => s.deny .badArg
  | some m =>
    let b := (s.port p).events
    (s.setEvents p { b with mask := m }).reply .ok ([b.mask.code, m.code] ++ b.counts)

/-- TAKE_EVENT (R143). -/
def actTakeEvent (s : State) (p : PortId) (_tag : Byte) (_pl : List Byte) : Reply :=
  match (s.port p).events.take with
  | none => s.reply .none (s.port p).events.counts
  | some (e, b) => (s.setEvents p b).reply .ok (e.bytes ++ b.counts)

/-- ACK_EVENT (R145). -/
def actAckEvent (s : State) (p : PortId) (_tag : Byte) (_pl : List Byte) : Reply :=
  match (s.port p).events.ack with
  | none => s.deny .nothingInService
  | some (e, b) => (s.setEvents p b).reply .ok (e.head ++ [byteOf b.stack.length])

end Sys2Proof.Machine
end

