-- ==== Sys2Proof/Machine/Snapshots.lean ====
section
/-! DEFINITION. The snapshot store: admission of a record, drops, and the requests SNAP_LIST, READ_SNAP
and RELEASE (chapter 6). -/

namespace Sys2Proof.Machine

/-! ## Admission (R109 to R111) -/

/-- The store's answer to the interval block (R89). -/
inductive StoreAnswer where
  /-- Admitted once this many of the oldest records are dropped. -/
  | admitted (drops : Nat)
  | ringFull
  | noSpace
  deriving DecidableEq, Repr

/-- The decision under HOLD for a record of `m` cells that closes interval `n` (R109). -/
def admitHold (ring : List SnapRecord) (free m : Nat) (n : Interval) : StoreAnswer :=
  if ring.length = Config.ringPlaces then .ringFull
  else if ring.any (·.interval == n) then .ringFull
  else if free < m then .noSpace
  else .admitted 0

/-- Dropping the `k` oldest records meets the three needs of R110. -/
def dropsSuffice (ring : List SnapRecord) (free m : Nat) (n : Interval) (k : Nat) : Bool :=
  (ring.drop k).length < Config.ringPlaces && m ≤ free + cellsHeld (ring.take k) &&
    !(ring.drop k).any (·.interval == n)

/-- The decision under DISCARD_OLDEST: the smallest number of drops that suffices (R110). -/
def admitDiscard (ring : List SnapRecord) (free m : Nat) (n : Interval) : StoreAnswer :=
  match (List.range (ring.length + 1)).find? (dropsSuffice ring free m n) with
  | some k => .admitted k
  | none => .noSpace

/-- The store's decision by the group's ring policy (R109, R110). -/
def State.admission (s : State) (g : GroupId) (m : Nat) : StoreAnswer :=
  let x := s.group g
  match x.policy with
  | .hold => admitHold (s.ring g) s.freeCells m x.interval
  | .discardOldest => admitDiscard (s.ring g) s.freeCells m x.interval

/-- The oldest record of a ring is dropped: its cells are freed and SNAPSHOT_LOST goes to its readers
(R110, R111). -/
def State.dropOldest (s : State) (g : GroupId) : State :=
  match s.ring g with
  | [] => s
  | r :: rest =>
    { s.setRing g rest with freeCells := s.freeCells + r.members.length }.postTo r.readers
      .snapshotLost (.group g) (.interval r.interval)

/-- The `k` oldest records of a ring are dropped in order, oldest first (R110). -/
def State.dropMany (s : State) (g : GroupId) : Nat → State
  | 0 => s
  | k + 1 => (s.dropOldest g).dropMany g k

/-! ## Requests (R113 to R117) -/

/-- One record as SNAP_LIST reports it to port `p` (R114, R170). -/
def SnapRecord.listed (r : SnapRecord) (p : PortId) : List Byte :=
  intervalBytes r.interval ++ [r.state.code] ++ beBytes 2 r.members.length ++
    [r.cause.code, byteOf r.missedBefore, boolByte (r.readers.contains p), byteOf r.readers.length]

/-- SNAP_LIST(group) (R114). -/
def actSnapList (s : State) (p : PortId) (_tag : Byte) (pl : List Byte) : Reply :=
  match readGroup (byteAt pl 0) with
  | none => s.deny .badArg
  | some g =>
    s.reply .ok (groupByte g :: beBytes 2 s.freeCells ++ byteOf (s.ring g).length ::
      (s.ring g).flatMap (·.listed p))

/-- What an uncopied cell would be reported as; no request reaches one, since READ_SNAP refuses a
FILLING record and a READY one has every cell copied (R107, log entry 19). -/
def SnapCell.blank : SnapCell := ⟨none, 0, false, false⟩

/-- One cell as READ_SNAP returns it (R115, R170). -/
def SnapCell.bytes (c : SnapCell) (t : TallyId) : List Byte :=
  tallyByte t :: valueBytes c.value ++ beBytes 4 c.count ++ [boolByte c.overflow, boolByte c.frozen]

/-- The members of a record with their cells, in member-list order. -/
def SnapRecord.entries (r : SnapRecord) : List (TallyId × SnapCell) :=
  r.members.zip (r.cells.map fun c => c.getD SnapCell.blank)

/-- READ_SNAP(group, interval number, first, count) (R115). -/
def actReadSnap (s : State) (p : PortId) (_tag : Byte) (pl : List Byte) : Reply :=
  let n := readInterval (fieldAt pl 1 4)
  let first := (byteAt pl 5).toNat
  let count := (byteAt pl 6).toNat
  match readGroup (byteAt pl 0) with
  | none => s.deny .badArg
  | some g =>
    if count = 0 ∨ Config.maxCellsRead < count then s.deny .badArg
    else match s.findRecord g n with
      | none => s.deny .notHeld
      | some r =>
        if r.state = .filling then s.deny .notReady
        else if p ∉ r.readers then s.deny .noRight
        else if r.members.length ≤ first then s.deny .badArg
        else
          let cells := (r.entries.drop first).take count
          s.reply .ok (groupByte g :: intervalBytes n ++ beBytes 2 r.members.length ++
            byteOf (min count (r.members.length - first)) :: cells.flatMap fun e => e.2.bytes e.1)

/-- A port leaves the reader set of the records a test picks in one ring; READY records left without
readers are removed and their cells freed, FILLING ones are marked discard pending (R108). -/
def State.leaveReaders (s : State) (p : PortId) (g : GroupId) (which : SnapRecord → Bool) : State :=
  let s := s.removeRecords g fun r => which r && r.freedBy p
  s.setRing g ((s.ring g).map fun r => if which r then r.withoutReader p else r)

/-- RELEASE(group, interval number) (R117). -/
def actRelease (s : State) (p : PortId) (_tag : Byte) (pl : List Byte) : Reply :=
  let n := readInterval (fieldAt pl 1 4)
  match readGroup (byteAt pl 0) with
  | none => s.deny .badArg
  | some g =>
    match s.findRecord g n with
    | none => s.deny .notHeld
    | some r =>
      if p ∉ r.readers then s.deny .noRight
      else
        (s.leaveReaders p g (·.interval == n)).reply .ok (groupByte g :: intervalBytes n ++
          [byteOf (r.withoutReader p).readers.length, boolByte (r.freedBy p)])

end Sys2Proof.Machine
end

