-- ==== Sys2Proof/Machine/Groups.lean ====
section
/-! DEFINITION. Interval groups: administration, admission and start of a close, TICK, the copier, the
close end, GROUP_STATUS (chapter 5). -/

namespace Sys2Proof.Machine

/-! ## Group administration (R82 to R84) -/

/-- The group's number is checked for range (R82, step 1). -/
def State.onGroup (s : State) (g : Option GroupId) (act : GroupId → Reply) : Reply :=
  match g with
  | none => s.deny .badArg
  | some g => act g

/-- The group administrator's role is checked; a vacant role counts as another port (R82, step 2). -/
def State.asGroupAdmin (s : State) (p : PortId) (g : GroupId) (r : Reply) : Reply :=
  if (s.group g).admin = some p then r else s.deny .notAdmin

/-- CLAIM_GROUP(group) (R83). -/
def actClaimGroup (s : State) (p : PortId) (_tag : Byte) (pl : List Byte) : Reply :=
  s.onGroup (readGroup (byteAt pl 0)) fun g =>
    let x := s.group g
    if x.admin.isSome then s.deny .notVacant
    else (s.setGroup g { x with admin := some p }).reply .ok
      (groupByte g :: x.state.code :: intervalBytes x.interval)

/-- SET_GROUP(group, period, ring policy) (R84). -/
def actSetGroup (s : State) (p : PortId) (_tag : Byte) (pl : List Byte) : Reply :=
  match readRingPolicy (byteAt pl 3) with
  | none => s.deny .badArg
  | some pol =>
    s.onGroup (readGroup (byteAt pl 0)) fun g =>
      s.asGroupAdmin p g <|
        let k := fieldAt pl 1 2
        (s.setGroup g { s.group g with period := k, countdown := k, policy := pol }).reply .ok
          (beBytes 2 k ++ beBytes 2 k ++ [pol.code])

/-! ## Close attempts (R88 to R93) -/

/-- The ports that hold, for at least one member, a binding and READ on that same member (R88). -/
def State.readersOf (s : State) (members : List TallyId) : List PortId :=
  (List.finRange 4).filter fun p => members.any fun t => s.bound p t && (s.rightsOf p t).read

/-- What an attempt of an OPEN group comes to (R87, R89). -/
inductive CloseOutcome where
  /-- The close started: the closed interval and the member count. -/
  | started (n : Interval) (members : Nat)
  /-- An unobserved close: the closed interval and the member count. -/
  | unobserved (n : Interval) (members : Nat)
  | ringFull
  | noSpace
  deriving DecidableEq, Repr

/-- An unobserved close: the interval advances and every member is reset, without a record (R90). -/
def State.unobservedClose (s : State) (g : GroupId) : State :=
  let n := (s.group g).interval + 1
  (s.mapTallies fun _ x => if x.defined && x.group == g then x.startInterval n else x).setGroup g
    { s.group g with interval := n }

/-- The record a close start makes (R93, step 1). -/
def State.newRecord (s : State) (g : GroupId) (c : Cause) (members : List TallyId) (readers : List PortId) :
    SnapRecord where
  group := g
  interval := (s.group g).interval
  state := .filling
  cause := c
  missedBefore := (s.group g).missed
  members := members
  cells := members.map fun _ => none
  readers := readers
  discard := false

/-- The close start: the record enters the ring, its cells are reserved, the group's number advances and
the group is CLOSING (R93). No member's record is touched. -/
def State.startClose (s : State) (g : GroupId) (c : Cause) (members : List TallyId) (readers : List PortId) :
    State :=
  let x := s.group g
  { (s.setRing g (s.ring g ++ [s.newRecord g c members readers])).setGroup g
      { x with missed := 0, interval := x.interval + 1, state := .closing, walk := 0 } with
    freeCells := s.freeCells - members.length }

/-- Admission of an attempt of an OPEN group, one action with all it does (R88 to R90, R93). -/
def State.attemptClose (s : State) (g : GroupId) (c : Cause) : State × CloseOutcome :=
  let members := s.membersOf g
  let readers := s.readersOf members
  let n := (s.group g).interval
  if members.isEmpty || readers.isEmpty then (s.unobservedClose g, .unobserved n members.length)
  else match s.admission g members.length with
    | .admitted k => ((s.dropMany g k).startClose g c members readers, .started n members.length)
    | .ringFull => (s, .ringFull)
    | .noSpace => (s, .noSpace)

/-- CLOSE(group) (R87). -/
def actClose (s : State) (p : PortId) (_tag : Byte) (pl : List Byte) : Reply :=
  s.onGroup (readGroup (byteAt pl 0)) fun g =>
    s.asGroupAdmin p g <|
      if (s.group g).state = .closing then s.deny .busy
      else
        let r := s.attemptClose g .manual
        match r.2 with
        | .started n m => r.1.reply .accepted (intervalBytes n ++ beBytes 2 m ++ [boolByte true])
        | .unobserved n m => r.1.reply .accepted (intervalBytes n ++ beBytes 2 m ++ [boolByte false])
        | .ringFull => s.deny .ringFull
        | .noSpace => s.deny .noSpace

/-- One ring entry as GROUP_STATUS reports it (R101). -/
def SnapRecord.summary (r : SnapRecord) : List Byte := intervalBytes r.interval ++ [r.state.code]

/-- GROUP_STATUS(group) (R101). -/
def actGroupStatus (s : State) (_p : PortId) (_tag : Byte) (pl : List Byte) : Reply :=
  s.onGroup (readGroup (byteAt pl 0)) fun g =>
    let x := s.group g
    s.reply .ok (groupByte g :: x.state.code :: intervalBytes x.interval ++ portByte x.admin ::
      beBytes 2 x.period ++ beBytes 2 x.countdown ++ [x.policy.code, byteOf x.missed] ++
      beBytes 2 (s.membersOf g).length ++ byteOf (s.ring g).length :: (s.ring g).flatMap SnapRecord.summary)

/-! ## TICK and timed closes (R85, R86, R92) -/

/-- A group meets a rising TICK edge. A period of 0 ignores it. An edge that would bring the countdown to
0, or that comes while an earlier one is still owed, is left to the group's own action,
TIMED_CLOSE_ATTEMPT (R85, log entry 4). -/
def Group.meetEdge (x : Group) : Group :=
  if x.period = 0 then x
  else if x.owedEdges = 0 ∧ 1 < x.countdown then { x with countdown := x.countdown - 1 }
  else { x with owedEdges := x.owedEdges + 1 }

/-- One rising edge on TICK (R85). -/
def State.tickEdge (s : State) : State :=
  { s with groups := tabulate fun g => (s.group g).meetEdge }

/-- A timed attempt is missed: the count rises and the administrator is told (R92). -/
def State.missClose (s : State) (g : GroupId) (r : MissedReason) : State :=
  let x := s.group g
  let s := s.setGroup g { x with missed := saturate 255 x.missed }
  match x.admin with
  | none => s
  | some p => s.post p .closeMissed (.group g) (.missed r)

/-- A timed close attempt (R86). -/
def State.timedAttempt (s : State) (g : GroupId) : State :=
  if (s.group g).state = .closing then s.missClose g .closing
  else
    let r := s.attemptClose g .timed
    match r.2 with
    | .started _ _ => r.1
    | .unobserved _ _ => r.1
    | .ringFull => s.missClose g .ringFull
    | .noSpace => s.missClose g .noSpace

/-- A group handles one edge owed to it, in one action: the countdown falls, and on reaching 0 it is
reloaded and a timed close is attempted (R85, R86). A period set to 0 meanwhile ignores the edge. -/
def State.handleEdge (s : State) (g : GroupId) : State :=
  let x := s.group g
  if x.owedEdges = 0 then s
  else
    let x := { x with owedEdges := x.owedEdges - 1 }
    if x.period = 0 then s.setGroup g x
    else if 1 < x.countdown then s.setGroup g { x with countdown := x.countdown - 1 }
    else (s.setGroup g { x with countdown := x.period }).timedAttempt g

/-! ## The copier and the close end (R97, R98) -/

/-- The filling record of a group's ring (R105). -/
def State.fillingRecord (s : State) (g : GroupId) : Option SnapRecord :=
  (s.ring g).find? (·.state == .filling)

/-- The copier's action on the next member of the filling record (R97). -/
def State.copierAct (s : State) (g : GroupId) : State :=
  match (s.group g).state, s.fillingRecord g with
  | .closing, some r =>
    match r.members[(s.group g).walk]? with
    | none => s
    | some t =>
      let s := s.touch t
      s.setGroup g { s.group g with walk := (s.group g).walk + 1 }
  | _, _ => s

/-- The walk of the group's close has ended (R97). -/
def State.walkEnded (s : State) (g : GroupId) : Bool :=
  match (s.group g).state, s.fillingRecord g with
  | .closing, some r => r.members.length ≤ (s.group g).walk
  | _, _ => false

/-- The close end: the group is OPEN, the record READY and announced to its readers, or removed without
an event when discard is pending (R98). -/
def State.endClose (s : State) (g : GroupId) : State :=
  match s.fillingRecord g with
  | none => s
  | some r =>
    let s := s.setGroup g { s.group g with state := .opened, walk := 0 }
    if r.discard then s.removeRecords g (·.state == .filling)
    else
      (s.setRing g ((s.ring g).map fun r => if r.state = .filling then { r with state := .ready } else r)).postTo
        r.readers .snapshotReady (.group g) (.interval r.interval)

end Sys2Proof.Machine
end

