-- ==== Sys2Proof/Machine/Sessions.lean ====
section
/-! DEFINITION. Sessions: HELLO, LEAVE, the five steps of a session end, and the opening of a session
(sections 9.5 and 9.6). -/

namespace Sys2Proof.Machine

/-! ## Opening (R161, R162) -/

/-- The session becomes ONLINE and its number increments, in one action. -/
def State.openSession (s : State) (p : PortId) : State :=
  s.setPort p { s.port p with session := .online, number := (s.port p).number + 1 }

/-- The HELLO identification (R162, R170). -/
def helloPayload (number : BitVec 8) : List Byte :=
  beBytes 2 0x0A42 ++ [0x01, number, 4] ++ beBytes 2 256 ++ [8, 64, 8, 16] ++ beBytes 2 1024

/-- A session end begins, the slot held WORKING on the given account (R160, R164). -/
def State.beginSessionEnd (s : State) (p : PortId) (w : Work) : State :=
  s.setPort p { s.port p with slot := .working w, sessionEnd := some .views }

/-- HELLO: OFFLINE it opens a session at once; ONLINE it first begins a session end (R162). -/
def actHello (s : State) (p : PortId) (tag : Byte) (_pl : List Byte) : Reply :=
  match (s.port p).session with
  | .offline => let s := s.openSession p; s.reply .ok (helloPayload (s.port p).number)
  | .online => (s.beginSessionEnd p (.hello tag), none)

/-- HELLO taken and its session not yet opened: OFFLINE, the slot stays WORKING until HELLO_OPEN_SESSION
opens the session or PRSTn# abandons the HELLO (R165); ONLINE, the session end begins as ever (R162). -/
def actHelloTaken (s : State) (p : PortId) (tag : Byte) (_pl : List Byte) : Reply :=
  match (s.port p).session with
  | .offline => (s.setPort p { s.port p with slot := .working (.hello tag) }, none)
  | .online => (s.beginSessionEnd p (.hello tag), none)

/-- LEAVE (R163). -/
def actLeave (s : State) (p : PortId) (tag : Byte) (_pl : List Byte) : Reply :=
  (s.beginSessionEnd p (.leave tag), none)

/-- A HELLO that waits on an OFFLINE port opens its session: one taken ONLINE once its session end is complete,
one taken OFFLINE at any time (R162). -/
def State.openAfterEnd (s : State) (p : PortId) : State :=
  match (s.port p).session, (s.port p).sessionEnd, (s.port p).slot with
  | .offline, none, .working (.hello tag) =>
    let s := s.openSession p
    s.respond p tag ⟨.ok, helloPayload (s.port p).number⟩
  | _, _, _ => s

/-! ## The five steps (R164) -/

/-- The next step of the session end is noted. -/
def State.noteStep (s : State) (p : PortId) (step : Option EndStep) : State :=
  s.setPort p { s.port p with sessionEnd := step }

/-- Step 1: every view entry of the port is removed, with the bind counts (R37). -/
def State.endViews (s : State) (p : PortId) : State :=
  (s.mapTallies fun t x => { x with bindCount := x.bindCount - s.entriesNaming p t }).setPort p
    { s.port p with view := Vector.replicate 64 none, sessionEnd := some .readers }

/-- Step 2: the port leaves every reader set (R119). -/
def State.endReaders (s : State) (p : PortId) : State :=
  ((List.finRange 8).foldl (fun s g => s.leaveReaders p g fun _ => true) s).noteStep p (some .tallyAdmin)

/-- A free order: by rising rank, the list's own order among equal ranks (log entry 5). -/
def byRank {α : Type} (rank : α → Nat) : List α → List α
  | [] => []
  | a :: l => insertByRank a (byRank rank l)
where
  insertByRank (a : α) : List α → List α
    | [] => [a]
    | b :: l => if rank a ≤ rank b then a :: b :: l else b :: insertByRank a l

/-- The other ports that hold a binding to the tally (R23); `State.post` discards for an OFFLINE one. -/
def State.othersBound (s : State) (p : PortId) (t : TallyId) : List PortId :=
  (List.finRange 4).filter fun q => q != p && s.bound q t

/-- The tallies a port administers, in the free order of this session end. -/
def State.administered (s : State) (p : PortId) : List TallyId :=
  byRank (Config.vacatedTallyRank s.draws) ((List.finRange 256).filter fun t => (s.tally t).admin == some p)

/-- One tally's administrator becomes vacant and ADMIN_VACANT is posted (R23). -/
def State.vacateTally (s : State) (p : PortId) (t : TallyId) : State :=
  (s.setTally t { s.tally t with admin := none }).postTo (s.othersBound p t) .adminVacant (.tally t) (.port p)

/-- Step 3: every tally the port administers is vacated (R23). -/
def State.endTallyAdmin (s : State) (p : PortId) : State :=
  (((s.administered p).foldl (fun s t => s.vacateTally p t) s).noteStep p (some .groupAdmin)).draw

/-- The other ports bound to at least one defined tally of the group (R100). -/
def State.othersInGroup (s : State) (p : PortId) (g : GroupId) : List PortId :=
  (List.finRange 4).filter fun q => q != p && (s.membersOf g).any fun t => s.bound q t

/-- The groups a port administers, in the free order of this session end. -/
def State.administeredGroups (s : State) (p : PortId) : List GroupId :=
  byRank (Config.vacatedGroupRank s.draws) ((List.finRange 8).filter fun g => (s.group g).admin == some p)

/-- One group's administrator becomes vacant and ADMIN_VACANT is posted (R100). -/
def State.vacateGroup (s : State) (p : PortId) (g : GroupId) : State :=
  (s.setGroup g { s.group g with admin := none }).postTo (s.othersInGroup p g) .adminVacant (.group g) (.port p)

/-- Step 4: every group the port administers is vacated (R100). -/
def State.endGroupAdmin (s : State) (p : PortId) : State :=
  (((s.administeredGroups p).foldl (fun s g => s.vacateGroup p g) s).noteStep p (some .events)).draw

/-- What step 5 makes of the slot: LEAVE is answered, a HELLO goes on to open its session, a port reset
leaves the slot EMPTY (R162, R163, R165). -/
def Port.slotAfterEnd (x : Port) : Slot :=
  match x.slot with
  | .working (.leave tag) => .ready ⟨tag, .ok, x.number, []⟩
  | .working .portReset => .empty
  | other => other

/-- Step 5: the event block is emptied, ALERTn# is released and the session is OFFLINE (R147, R164). -/
def State.endEvents (s : State) (p : PortId) : State :=
  let x := s.port p
  s.setPort p { x with events := EventBlock.empty, session := .offline, sessionEnd := none, slot := x.slotAfterEnd }

/-- A step of the session end is due: one is in progress, this step is the next (R164), and a POST that was
taken before has been acted on in full (R165). A step that is not due does not happen (log entry 3). -/
def State.whenDue (s : State) (p : PortId) (step : EndStep) (f : State → State) : State :=
  if (s.port p).sessionEnd = some step ∧ (s.port p).posting = none then f s else s

end Sys2Proof.Machine
end

