-- ==== Sys2Proof/Machine/Tallies.lean ====
section
/-! DEFINITION. Tally administration: DEFINE, RETIRE, GRANT, FREEZE, RESUME, CLAIM_TALLY (chapter 1) and
SET_LIMIT (chapter 7). -/

namespace Sys2Proof.Machine

/-- The lowest-numbered FREE tally (R16). -/
def State.lowestFree (s : State) : Option TallyId :=
  (List.finRange 256).find? fun t => (s.tally t).state == .free

/-- The record DEFINE writes (R16). -/
def Tally.defineAs (p : PortId) (k : Kind) (g : GroupId) (pol : OverflowPolicy) (reset : Bool)
    (n : Interval) : Tally :=
  { Tally.cleared with
    state := .live
    kind := k
    group := g
    policy := pol
    resetOnClose := reset
    value := match k with
      | .peak => none
      | _ => some 0
    tag := n
    admin := some p
    rights := Tally.cleared.rights.set p Rights.all }

/-- DEFINE(kind, group, overflow policy, reset on close) (R16). -/
def actDefine (s : State) (p : PortId) (_tag : Byte) (pl : List Byte) : Reply :=
  match readKind (byteAt pl 0), readGroup (byteAt pl 1), readPolicy (byteAt pl 2), readBool (byteAt pl 3) with
  | some k, some g, some pol, some reset =>
    match s.lowestFree with
    | none => s.deny .noSpace
    | some t =>
      let n := (s.group g).interval
      (s.setTally t (Tally.defineAs p k g pol reset n)).reply .ok (tallyByte t :: intervalBytes n)
  | _, _, _, _ => s.deny .badArg

/-- RETIRE(handle) (R17). -/
def actRetire (s : State) (p : PortId) (_tag : Byte) (pl : List Byte) : Reply :=
  s.onHandle p (readHandle (byteAt pl 0)) fun h e =>
    s.asTallyAdmin p e.tally <|
      let x := s.tally e.tally
      if (s.group x.group).state = .closing then s.deny .busy
      else if 1 < x.bindCount ∨ 0 < x.stagedCount then s.deny .inUse
      else ((s.setView p h none).setTally e.tally Tally.cleared).reply .ok [tallyByte e.tally]

/-- GRANT(handle, port, rights) (R19). -/
def actGrant (s : State) (p : PortId) (_tag : Byte) (pl : List Byte) : Reply :=
  match readPort (byteAt pl 1), readRights (byteAt pl 2) with
  | some q, some r =>
    s.onHandle p (readHandle (byteAt pl 0)) fun _ e =>
      s.asTallyAdmin p e.tally <|
        let x := s.tally e.tally
        (s.setTally e.tally { x with rights := x.rights.set q r }).reply .ok [(x.rights[q]).code, r.code]
  | _, _ => s.deny .badArg

/-- The tally's state becomes `st` after any copy step that is owed (R5). -/
def State.setTallyState (s : State) (t : TallyId) (st : TallyState) : State :=
  let s := s.touch t
  s.setTally t { s.tally t with state := st }

/-- FREEZE(handle) (R20). -/
def actFreeze (s : State) (p : PortId) (_tag : Byte) (pl : List Byte) : Reply :=
  s.onHandle p (readHandle (byteAt pl 0)) fun _ e =>
    s.asTallyAdmin p e.tally <| (s.setTallyState e.tally .frozen).reply .ok [TallyState.frozen.code]

/-- RESUME(handle) (R21). -/
def actResume (s : State) (p : PortId) (_tag : Byte) (pl : List Byte) : Reply :=
  s.onHandle p (readHandle (byteAt pl 0)) fun _ e =>
    s.asTallyAdmin p e.tally <| (s.setTallyState e.tally .live).reply .ok [TallyState.live.code]

/-- CLAIM_TALLY(handle) (R22). -/
def actClaimTally (s : State) (p : PortId) (_tag : Byte) (pl : List Byte) : Reply :=
  s.onHandle p (readHandle (byteAt pl 0)) fun _ e =>
    let x := s.tally e.tally
    if x.admin.isSome then s.deny .notVacant
    else (s.setTally e.tally { x with admin := some p }).reply .ok [tallyByte e.tally]

/-- The limit on one side of a tally. -/
def Tally.limit (x : Tally) : Side → Option Limit
  | .upper => x.upper
  | .lower => x.lower

/-- Put a limit on one side of a tally, or take it off. -/
def Tally.setLimit (x : Tally) (d : Side) (l : Option Limit) : Tally :=
  match d with
  | .upper => { x with upper := l }
  | .lower => { x with lower := l }

/-- The limit SET makes: ARMED, then evaluated silently against the present value (R127, R129). -/
def Tally.armedLimit (x : Tally) (d : Side) (level : Int) (hyst : Nat) : Limit :=
  match x.value with
  | none => ⟨level, hyst, .armed⟩
  | some v => ((⟨level, hyst, .armed⟩ : Limit).evaluate d v).1

/-- The answer OK of SET_LIMIT: the tally and both limits as they stand (R129, R170). -/
def State.limitAnswer (s : State) (t : TallyId) : Reply :=
  s.reply .ok (tallyByte t :: limitBytes (s.tally t).upper ++ limitBytes (s.tally t).lower)

/-- SET_LIMIT(handle, which, operation, level, hysteresis) (R129, R130). It performs no copy step. -/
def actSetLimit (s : State) (p : PortId) (_tag : Byte) (pl : List Byte) : Reply :=
  match readSide (byteAt pl 1), readLimitOp (byteAt pl 2), readSigned (byteAt pl 3) (fieldAt pl 4 8) with
  | some d, some op, some level =>
    s.onHandle p (readHandle (byteAt pl 0)) fun _ e =>
      s.asTallyAdmin p e.tally <|
        let t := e.tally
        let x := s.tally t
        if x.kind = .peak then s.deny .badKind
        else match op with
          | .report => s.limitAnswer t
          | .remove => (s.setTally t (x.setLimit d none)).limitAnswer t
          | .set =>
            if x.kind.holds level then
              (s.setTally t (x.setLimit d (some (x.armedLimit d level (fieldAt pl 12 4))))).limitAnswer t
            else s.deny .badArg
  | _, _, _ => s.deny .badArg

end Sys2Proof.Machine
end

