-- ==== Sys2Proof/Machine/Views.lean ====
section
/-! DEFINITION. Binding and unbinding handles: BIND, UNBIND (chapter 2). -/

namespace Sys2Proof.Machine

/-- The bind count of a tally, raised by a successful BIND (R11, R27). -/
def State.countBind (s : State) (t : TallyId) : State :=
  s.setTally t { s.tally t with bindCount := (s.tally t).bindCount + 1 }

/-- The bind count of a tally, lowered by UNBIND (R11, R27). -/
def State.countUnbind (s : State) (t : TallyId) : State :=
  s.setTally t { s.tally t with bindCount := (s.tally t).bindCount - 1 }

/-- The port's handle that names a tally, if it has one (R27). -/
def State.handleOf (s : State) (p : PortId) (t : TallyId) : Option HandleId :=
  (List.finRange 64).find? fun h => entryNames t (s.viewEntry p h)

/-- The rights are not empty (R10, R28). -/
def Rights.any (r : Rights) : Bool := r.post || r.read || r.draw || r.watch

/-- BIND(handle, tally, weight) (R28). -/
def actBind (s : State) (p : PortId) (_tag : Byte) (pl : List Byte) : Reply :=
  match readHandle (byteAt pl 0), readWeight (fieldAt pl 2 2) with
  | some h, some w =>
    let t := readTally (byteAt pl 1)
    match s.viewEntry p h with
    | some e => s.reply .already [handleByte h, tallyByte e.tally]
    | none =>
      if (s.tally t).state = .free then s.deny .noTally
      else if !(s.rightsOf p t).any then s.deny .noRight
      else match s.handleOf p t with
        | some h' => s.reply .already [handleByte h', tallyByte t]
        | none =>
          let s' := (s.setView p h (some ⟨t, w⟩)).countBind t
          let x := s'.tally t
          s'.reply .ok [handleByte h, tallyByte t, x.kind.code, groupByte x.group, (s.rightsOf p t).code,
            byteOf x.bindCount]
  | _, _ => s.deny .badArg

/-- UNBIND(handle) (R30). -/
def actUnbind (s : State) (p : PortId) (_tag : Byte) (pl : List Byte) : Reply :=
  s.onHandle p (readHandle (byteAt pl 0)) fun h e =>
    let s' := (s.setView p h none).countUnbind e.tally
    s'.reply .ok [tallyByte e.tally, byteOf (s'.tally e.tally).bindCount]

end Sys2Proof.Machine
end

