-- ==== Sys2Proof/Machine/Link.lean ====
section
/-! DEFINITION. The link of a port: transactions from select fall to select high, the taking and the
refusal of frames, the response slot (sections 9.2 to 9.4). -/

namespace Sys2Proof.Machine

/-! ## Taking a frame (R154, R156, R157) -/

/-- The refusal reason is latched (R156). -/
def State.latch (s : State) (p : PortId) (r : LinkReason) : State := s.setPort p { s.port p with reason := r }

/-- A frame is taken: the reason becomes NONE and the slot WORKING (R157). -/
def State.takeFrame (s : State) (p : PortId) (tag : Byte) : State :=
  s.setPort p { s.port p with reason := .none, slot := .working (.request tag) }

/-- Steps 2 to 4 of R157 for a request: OFFLINE, payload length, then the owning block acts. -/
def State.examine (s : State) (p : PortId) (tag : Byte) (r : Req) (pl : List Byte)
    (act : State → PortId → Byte → List Byte → Reply) : State :=
  if (s.port p).session = .offline ∧ r ≠ .hello then s.respond p tag ⟨.offline, []⟩
  else if !accepts r pl then s.respond p tag ⟨.badArg, []⟩
  else match act s p tag pl with
    | (s', some a) => s'.respond p tag a
    | (s', none) => s'

/-- The action of the block that owns the state a request names (the table of R157). -/
def actOf : Req → State → PortId → Byte → List Byte → Reply
  | .hello => actHello
  | .leave => actLeave
  | .setMask => actSetMask
  | .takeEvent => actTakeEvent
  | .ackEvent => actAckEvent
  | .define => actDefine
  | .retire => actRetire
  | .grant => actGrant
  | .freeze => actFreeze
  | .resume => actResume
  | .claimTally => actClaimTally
  | .setLimit => actSetLimit
  | .bind => actBind
  | .unbind => actUnbind
  | .post => actPost
  | .drain => actDrain
  | .read => actRead
  | .take => actTake
  | .exchange => actExchange
  | .clearFlags => actClearFlags
  | .claimGroup => actClaimGroup
  | .setGroup => actSetGroup
  | .close => actClose
  | .groupStatus => actGroupStatus
  | .snapList => actSnapList
  | .readSnap => actReadSnap
  | .release => actRelease

/-- A taken frame is examined by its request code (R157). -/
def State.examineFrame (s : State) (p : PortId) (f : Frame) : State :=
  match reqOfCode f.code with
  | none => s.respond p f.tag ⟨.unknown, []⟩
  | some r => s.examine p f.tag r f.payload (actOf r)

/-- The select high of a REQUEST transaction: the four tests in order, then the frame is taken and run
(R154). -/
def State.endFrame (s : State) (p : PortId) (f : Except LinkReason Frame) (run : State → Frame → State) :
    State :=
  if (s.port p).prst then s.latch p .type
  else match f with
    | .error r => s.latch p r
    | .ok f => if (s.port p).slot = .empty then run (s.takeFrame p f.tag) f else s.latch p .busy

/-! ## Transactions (R151, R155, R158, R159) -/

/-- The bits driven on SOn in this transaction. -/
def State.driveSo (s : State) (p : PortId) (bits : List Bool) : State := s.setPort p { s.port p with so := bits }

/-- The link state changes. -/
def State.setLink (s : State) (p : PortId) (l : LinkState) : State := s.setPort p { s.port p with link := l }

/-- A READY slot is emptied (R159). -/
def Slot.emptied : Slot → Slot
  | .ready _ => .empty
  | other => other

/-- The select falls: the status byte is formed and the response settled (R151, R152, R158). -/
def State.selectFall (s : State) (p : PortId) : State :=
  let x := s.port p
  s.setPort p { x with so := [], link := .typing x.statusByte x.slot.settled [] }

/-- What a transaction is once its type byte is known (R151, R167). -/
def LinkState.ofType (ty first : Byte) (settled : Option Response) : LinkState :=
  if ty = typeStatus then .status first 8
  else if ty = typeRequest then .request first []
  else if ty = typeFetch then .fetch settled 0
  else .unknown

/-- `n` further bits of a STATUS transaction: the byte in hand is finished, each later one is formed
afresh (R152). -/
def statusBits (cur fresh : Byte) (out n : Nat) : List Bool :=
  (List.range n).map fun k => if out + k < 8 then cur.getMsbD (out + k) else fresh.getMsbD ((out + k) % 8)

/-- The byte in hand after `n` further bits, and how many of its bits are out. -/
def statusLink (cur fresh : Byte) (out n : Nat) : LinkState :=
  if out + n ≤ 8 then .status cur (out + n) else .status fresh ((out + n - 1) % 8 + 1)

/-- The bits `si` are clocked into a transaction whose type byte is complete, and the select rises or stays
low. An abandoned transaction takes nothing from SIn and carries filler (R155, R167, log entry 6). -/
def State.clockTyped (s : State) (p : PortId) (si : List Bool) (rises : Bool) : State :=
  let x := s.port p
  let n := si.length
  match x.link with
  | .idle | .typing _ _ _ => s
  | .status cur out =>
    s.setPort p { x with
      so := x.so ++ statusBits cur x.statusByte out n
      link := if rises then .idle else statusLink cur x.statusByte out n }
  | .fetch settled out =>
    s.setPort p { x with
      so := x.so ++ streamBits (fetchStream settled) out n
      slot := if rises && fetchComplete settled (out + n) then x.slot.emptied else x.slot
      link := if rises then .idle else .fetch settled (out + n) }
  | .request first rx =>
    let s := s.setPort p { x with
      so := x.so ++ repeatBits first rx.length n
      link := if rises then .idle else .request first (rx ++ si) }
    if rises then s.endFrame p (parseFrame (rx ++ si)) (·.examineFrame p ·) else s
  | .unknown =>
    s.setPort p { x with
      so := x.so ++ List.replicate n false
      link := if rises then .idle else .unknown
      reason := if rises then .type else x.reason }
  | .abandoned =>
    s.setPort p { x with
      so := x.so ++ List.replicate n false
      link := if rises then .idle else .abandoned }

/-- Bits clocked before the type byte is complete: SOn carries the status byte, and a select that rises here
leaves a transaction without a type, which changes nothing (R151). -/
def State.clockTyping (s : State) (p : PortId) (first : Byte) (rx : List Bool) (l : LinkState) (n : Nat) : State :=
  let x := s.port p
  s.setPort p { x with so := x.so ++ repeatBits first rx.length n, link := l }

/-- The bits `si` are clocked into the transaction open on the port. The first eight bits after the select
fall are its type byte; the bits after them are clocked as the type requires (R151). On an idle link nothing
happens: a transaction has to begin first. -/
def State.clock (s : State) (p : PortId) (si : List Bool) (rises : Bool) : State :=
  match (s.port p).link with
  | .typing first settled rx =>
    let bits := rx ++ si
    if bits.length < 8 then
      s.clockTyping p first rx (if rises then .idle else .typing first settled bits) si.length
    else
      (s.clockTyping p first rx (.ofType (bitsByte (bits.take 8)) first settled) (8 - rx.length)).clockTyped p
        (bits.drop 8) rises
  | _ => s.clockTyped p si rises

/-- While RESET# is asserted a transaction is ignored: nothing is shifted out and nothing latched; one
whose select stays low stays ignored until its select rises (R166, log entry 13). -/
def State.ignoreTransaction (s : State) (p : PortId) (rises : Bool) : State :=
  s.setPort p { s.port p with so := [], link := if rises then .idle else .abandoned }

/-- The bits of a transaction command, its type byte among them: on an idle link the select falls first; on a
port whose select is still low they belong to the open transaction (log entry 7). -/
def State.transact (s : State) (p : PortId) (si : List Bool) (rises : Bool) : State :=
  if s.resetPin then s.ignoreTransaction p rises
  else if (s.port p).link = .idle then (s.selectFall p).clock p si rises
  else s.clock p si rises

/-- A whole REQUEST transaction with the frame `f`: on an idle link the status byte goes out once for
each of its bytes, and the frame is taken or refused at select high (R151, R154). -/
def State.requestTransaction (s : State) (p : PortId) (f : Frame) (run : State → Frame → State) : State :=
  if s.resetPin then s.ignoreTransaction p true
  else if (s.port p).link = .idle then
    (s.driveSo p (repeatBits (s.port p).statusByte 0 (8 * (1 + f.bytes.length)))).endFrame p (wholeFrame f) run
  else s.clock p (byteBits typeRequest ++ bytesBits f.bytes) true

/-- A REQUEST transaction that names the request `r` (R157). -/
def State.request (s : State) (p : PortId) (tag : Byte) (r : Req) (pl : List Byte)
    (act : State → PortId → Byte → List Byte → Reply) : State :=
  s.requestTransaction p ⟨tag, reqCode r, pl⟩ fun s f => s.examine p f.tag r f.payload act

/-- The select high that ends an abandoned transaction, after `n` further bits (R155). -/
def State.endAbandoned (s : State) (p : PortId) (n : Nat) : State :=
  if (s.port p).link = .abandoned then
    if s.resetPin then s.ignoreTransaction p true else s.clock p (List.replicate n false) true
  else s

end Sys2Proof.Machine
end

