-- ==== Sys2Proof/Machine/Requests.lean ====
section
/-! DEFINITION. The meanings of the request commands: one whole REQUEST transaction each, whose frame
names the request; the block's action is in the family's own file. -/

namespace Sys2Proof.Machine

/-- The outcome of a step: no step of this part ends in a fault. -/
abbrev Result := Host.Outcome State Fault Refusal

/-- UNKNOWN_REQUEST: a frame with any request code, examined by it (R157). A code that names no request
is answered UNKNOWN. -/
def execUnknownRequest (p : PortId) (tag code : Byte) (pl : List Byte) (s : State) : Result :=
  .next (s.requestTransaction p ⟨tag, code, pl⟩ fun s f => s.examineFrame p f)

/-- HELLO, the opening of the session within the step or left to HELLO_OPEN_SESSION (R162, R165). -/
def execHello (p : PortId) (tag : Byte) (form : HelloForm) (s : State) : Result :=
  .next (s.request p tag .hello form.payload (if form.opens then actHello else actHelloTaken))

/-- LEAVE (R163). -/
def execLeave (p : PortId) (tag : Byte) (pl : List Byte) (s : State) : Result :=
  .next (s.request p tag .leave pl actLeave)

/-- SET_MASK (R141). -/
def execSetMask (p : PortId) (tag : Byte) (pl : List Byte) (s : State) : Result :=
  .next (s.request p tag .setMask pl actSetMask)

/-- TAKE_EVENT (R143). -/
def execTakeEvent (p : PortId) (tag : Byte) (pl : List Byte) (s : State) : Result :=
  .next (s.request p tag .takeEvent pl actTakeEvent)

/-- ACK_EVENT (R145). -/
def execAckEvent (p : PortId) (tag : Byte) (pl : List Byte) (s : State) : Result :=
  .next (s.request p tag .ackEvent pl actAckEvent)

/-- DEFINE (R16). -/
def execDefine (p : PortId) (tag : Byte) (pl : List Byte) (s : State) : Result :=
  .next (s.request p tag .define pl actDefine)

/-- RETIRE (R17). -/
def execRetire (p : PortId) (tag : Byte) (pl : List Byte) (s : State) : Result :=
  .next (s.request p tag .retire pl actRetire)

/-- GRANT (R19). -/
def execGrant (p : PortId) (tag : Byte) (pl : List Byte) (s : State) : Result :=
  .next (s.request p tag .grant pl actGrant)

/-- FREEZE (R20). -/
def execFreeze (p : PortId) (tag : Byte) (pl : List Byte) (s : State) : Result :=
  .next (s.request p tag .freeze pl actFreeze)

/-- RESUME (R21). -/
def execResume (p : PortId) (tag : Byte) (pl : List Byte) (s : State) : Result :=
  .next (s.request p tag .resume pl actResume)

/-- CLAIM_TALLY (R22). -/
def execClaimTally (p : PortId) (tag : Byte) (pl : List Byte) (s : State) : Result :=
  .next (s.request p tag .claimTally pl actClaimTally)

/-- SET_LIMIT (R129, R130). -/
def execSetLimit (p : PortId) (tag : Byte) (pl : List Byte) (s : State) : Result :=
  .next (s.request p tag .setLimit pl actSetLimit)

/-- BIND (R28). -/
def execBind (p : PortId) (tag : Byte) (pl : List Byte) (s : State) : Result :=
  .next (s.request p tag .bind pl actBind)

/-- UNBIND (R30). -/
def execUnbind (p : PortId) (tag : Byte) (pl : List Byte) (s : State) : Result :=
  .next (s.request p tag .unbind pl actUnbind)

/-- POST, whole or in parts (R42 to R46). -/
def execPost (p : PortId) (tag : Byte) (pl : List Byte) (part : PostPart) (s : State) : Result :=
  match part with
  | .whole => .next (s.request p tag .post pl actPost)
  | .taken => .next (s.request p tag .post pl actPostTaken)
  | .entry => .next (s.unlessReset (·.postNext p))

/-- DRAIN (R64). -/
def execDrain (p : PortId) (tag : Byte) (pl : List Byte) (s : State) : Result :=
  .next (s.request p tag .drain pl actDrain)

/-- READ (R70). -/
def execRead (p : PortId) (tag : Byte) (pl : List Byte) (s : State) : Result :=
  .next (s.request p tag .read pl actRead)

/-- TAKE (R71). -/
def execTake (p : PortId) (tag : Byte) (pl : List Byte) (s : State) : Result :=
  .next (s.request p tag .take pl actTake)

/-- EXCHANGE (R73). -/
def execExchange (p : PortId) (tag : Byte) (pl : List Byte) (s : State) : Result :=
  .next (s.request p tag .exchange pl actExchange)

/-- CLEAR_FLAGS (R76). -/
def execClearFlags (p : PortId) (tag : Byte) (pl : List Byte) (s : State) : Result :=
  .next (s.request p tag .clearFlags pl actClearFlags)

/-- CLAIM_GROUP (R83). -/
def execClaimGroup (p : PortId) (tag : Byte) (pl : List Byte) (s : State) : Result :=
  .next (s.request p tag .claimGroup pl actClaimGroup)

/-- SET_GROUP (R84). -/
def execSetGroup (p : PortId) (tag : Byte) (pl : List Byte) (s : State) : Result :=
  .next (s.request p tag .setGroup pl actSetGroup)

/-- CLOSE (R87). -/
def execClose (p : PortId) (tag : Byte) (pl : List Byte) (s : State) : Result :=
  .next (s.request p tag .close pl actClose)

/-- GROUP_STATUS (R101). -/
def execGroupStatus (p : PortId) (tag : Byte) (pl : List Byte) (s : State) : Result :=
  .next (s.request p tag .groupStatus pl actGroupStatus)

/-- SNAP_LIST (R114). -/
def execSnapList (p : PortId) (tag : Byte) (pl : List Byte) (s : State) : Result :=
  .next (s.request p tag .snapList pl actSnapList)

/-- READ_SNAP (R115). -/
def execReadSnap (p : PortId) (tag : Byte) (pl : List Byte) (s : State) : Result :=
  .next (s.request p tag .readSnap pl actReadSnap)

/-- RELEASE (R117). -/
def execRelease (p : PortId) (tag : Byte) (pl : List Byte) (s : State) : Result :=
  .next (s.request p tag .release pl actRelease)

end Sys2Proof.Machine
end

