-- ==== Sys2Proof/Machine/Steps.lean ====
section
/-! DEFINITION. The meanings of the link commands that carry no request, of the part's internal steps,
and of the pins. -/

namespace Sys2Proof.Machine

/-! ## Transactions -/

/-- STATUS: the status byte goes out, formed afresh for each byte; SIn is ignored (R151, R152). -/
def execStatus (p : PortId) (n : Nat) (rises : Bool) (s : State) : Result :=
  .next (s.transact p (byteBits typeStatus ++ List.replicate n false) rises)

/-- FETCH: the settled response or the marker goes out; the slot empties once all of it is clocked and
the select rises (R158, R159). -/
def execFetch (p : PortId) (n : Nat) (rises : Bool) (s : State) : Result :=
  .next (s.transact p (byteBits typeFetch ++ List.replicate n false) rises)

/-- UNKNOWN_TYPE: filler goes out, and TYPE is latched at select high (R151). -/
def execUnknownType (p : PortId) (ty : Byte) (n : Nat) (rises : Bool) (s : State) : Result :=
  .next (s.transact p (byteBits ty ++ List.replicate n false) rises)

/-- FRAME_REFUSED: a REQUEST transaction of any bits. At select high the failing test's reason is latched
and the frame discarded (R154); bits that pass every test are a frame that is taken (log entry 10). -/
def execFrameRefused (p : PortId) (si : List Bool) (rises : Bool) (s : State) : Result :=
  .next (s.transact p (byteBits typeRequest ++ si) rises)

/-- ABANDONED_TRANSACTION_END (R155). -/
def execAbandonedTransactionEnd (p : PortId) (n : Nat) (s : State) : Result :=
  .next (s.endAbandoned p n)

/-- TRANSACTION_WITHOUT_TYPE: the bits of `si` alone are clocked (R151). Eight bits or more do hold a type byte
(log entry 10). -/
def execTransactionWithoutType (p : PortId) (si : Clocking) (s : State) : Result :=
  .next (s.transact p si.bits si.rises)

/-! ## Internal steps: none happens while RESET# is asserted (R166) -/

/-- HELLO_OPEN_SESSION (R162). -/
def execHelloOpenSession (p : PortId) (s : State) : Result := .next (s.unlessReset (·.openAfterEnd p))

/-- SESSION_END_VIEWS: step 1 (R37, R164). -/
def execSessionEndViews (p : PortId) (s : State) : Result :=
  .next (s.unlessReset (·.whenDue p .views (·.endViews p)))

/-- SESSION_END_READERS: step 2 (R119, R164). -/
def execSessionEndReaders (p : PortId) (s : State) : Result :=
  .next (s.unlessReset (·.whenDue p .readers (·.endReaders p)))

/-- SESSION_END_TALLY_ADMIN: step 3 (R23, R164). -/
def execSessionEndTallyAdmin (p : PortId) (s : State) : Result :=
  .next (s.unlessReset (·.whenDue p .tallyAdmin (·.endTallyAdmin p)))

/-- SESSION_END_GROUP_ADMIN: step 4 (R100, R164). -/
def execSessionEndGroupAdmin (p : PortId) (s : State) : Result :=
  .next (s.unlessReset (·.whenDue p .groupAdmin (·.endGroupAdmin p)))

/-- SESSION_END_EVENTS: step 5 (R147, R164). -/
def execSessionEndEvents (p : PortId) (s : State) : Result :=
  .next (s.unlessReset (·.whenDue p .events (·.endEvents p)))

/-- APPLY (R52, R54). -/
def execApply (s : State) : Result := .next (s.unlessReset (·.applyNext))

/-- TICK: the edge is not counted while RESET# is asserted (R85, R166). -/
def execTick (s : State) : Result := .next (s.unlessReset (·.tickEdge))

/-- TIMED_CLOSE_ATTEMPT (R85, R86). -/
def execTimedCloseAttempt (g : GroupId) (s : State) : Result := .next (s.unlessReset (·.handleEdge g))

/-- COPIER_STEP (R97). -/
def execCopierStep (g : GroupId) (s : State) : Result := .next (s.unlessReset (·.copierAct g))

/-- CLOSE_END: taken once the walk has ended (R98). -/
def execCloseEnd (g : GroupId) (s : State) : Result :=
  .next (s.unlessReset fun s => if s.walkEnded g then s.endClose g else s)

/-! ## Pins -/

/-- PRST_ASSERT (R165). -/
def execPrstAssert (p : PortId) (s : State) : Result := .next (s.assertPrst p)

/-- PRST_RELEASE (R165). -/
def execPrstRelease (p : PortId) (s : State) : Result := .next (s.releasePrst p)

/-- RESET_ASSERT (R166). -/
def execResetAssert (s : State) : Result := .next s.assertReset

/-- RESET_RELEASE (R166). -/
def execResetRelease (s : State) : Result := .next s.releaseReset

end Sys2Proof.Machine
end

