-- ==== Sys2Proof/Machine/Dispatch.lean ====
section
/-! DEFINITION. One arm per command. -/

namespace Sys2Proof.Machine

/-- The command's effect on everything but the queue. -/
def exec (i : Instr) (s : State) : Host.Outcome State Fault Refusal :=
  match i with
  | .status p n rises => Sys2Proof.Machine.execStatus p n rises s
  | .fetch p n rises => Sys2Proof.Machine.execFetch p n rises s
  | .unknownType p ty n rises => Sys2Proof.Machine.execUnknownType p ty n rises s
  | .frameRefused p si rises => Sys2Proof.Machine.execFrameRefused p si rises s
  | .abandonedTransactionEnd p n => Sys2Proof.Machine.execAbandonedTransactionEnd p n s
  | .unknownRequest p tag code pl => Sys2Proof.Machine.execUnknownRequest p tag code pl s
  | .hello p tag form => Sys2Proof.Machine.execHello p tag form s
  | .helloOpenSession p => Sys2Proof.Machine.execHelloOpenSession p s
  | .leave p tag pl => Sys2Proof.Machine.execLeave p tag pl s
  | .sessionEndViews p => Sys2Proof.Machine.execSessionEndViews p s
  | .sessionEndReaders p => Sys2Proof.Machine.execSessionEndReaders p s
  | .sessionEndTallyAdmin p => Sys2Proof.Machine.execSessionEndTallyAdmin p s
  | .sessionEndGroupAdmin p => Sys2Proof.Machine.execSessionEndGroupAdmin p s
  | .sessionEndEvents p => Sys2Proof.Machine.execSessionEndEvents p s
  | .setMask p tag pl => Sys2Proof.Machine.execSetMask p tag pl s
  | .takeEvent p tag pl => Sys2Proof.Machine.execTakeEvent p tag pl s
  | .ackEvent p tag pl => Sys2Proof.Machine.execAckEvent p tag pl s
  | .define p tag pl => Sys2Proof.Machine.execDefine p tag pl s
  | .retire p tag pl => Sys2Proof.Machine.execRetire p tag pl s
  | .grant p tag pl => Sys2Proof.Machine.execGrant p tag pl s
  | .freeze p tag pl => Sys2Proof.Machine.execFreeze p tag pl s
  | .resume p tag pl => Sys2Proof.Machine.execResume p tag pl s
  | .claimTally p tag pl => Sys2Proof.Machine.execClaimTally p tag pl s
  | .setLimit p tag pl => Sys2Proof.Machine.execSetLimit p tag pl s
  | .bind p tag pl => Sys2Proof.Machine.execBind p tag pl s
  | .unbind p tag pl => Sys2Proof.Machine.execUnbind p tag pl s
  | .post p tag pl part => Sys2Proof.Machine.execPost p tag pl part s
  | .drain p tag pl => Sys2Proof.Machine.execDrain p tag pl s
  | .read p tag pl => Sys2Proof.Machine.execRead p tag pl s
  | .take p tag pl => Sys2Proof.Machine.execTake p tag pl s
  | .exchange p tag pl => Sys2Proof.Machine.execExchange p tag pl s
  | .clearFlags p tag pl => Sys2Proof.Machine.execClearFlags p tag pl s
  | .claimGroup p tag pl => Sys2Proof.Machine.execClaimGroup p tag pl s
  | .setGroup p tag pl => Sys2Proof.Machine.execSetGroup p tag pl s
  | .close p tag pl => Sys2Proof.Machine.execClose p tag pl s
  | .groupStatus p tag pl => Sys2Proof.Machine.execGroupStatus p tag pl s
  | .snapList p tag pl => Sys2Proof.Machine.execSnapList p tag pl s
  | .readSnap p tag pl => Sys2Proof.Machine.execReadSnap p tag pl s
  | .release p tag pl => Sys2Proof.Machine.execRelease p tag pl s
  | .apply => Sys2Proof.Machine.execApply s
  | .tick => Sys2Proof.Machine.execTick s
  | .timedCloseAttempt g => Sys2Proof.Machine.execTimedCloseAttempt g s
  | .copierStep g => Sys2Proof.Machine.execCopierStep g s
  | .closeEnd g => Sys2Proof.Machine.execCloseEnd g s
  | .prstAssert p => Sys2Proof.Machine.execPrstAssert p s
  | .prstRelease p => Sys2Proof.Machine.execPrstRelease p s
  | .resetAssert => Sys2Proof.Machine.execResetAssert s
  | .resetRelease => Sys2Proof.Machine.execResetRelease s
  | .transactionWithoutType p si => Sys2Proof.Machine.execTransactionWithoutType p si s

end Sys2Proof.Machine
end

