-- ==== Sys2Proof/Machine/Step.lean ====
section
/-! DEFINITION. One step of the machine: the command at the front of the queue is taken and run. -/

namespace Sys2Proof.Machine

/-- The queue of commands takes another content. -/
def State.setPending (s : State) (q : List Instr) : State := { s with pending := q }

/-- One step: the front command runs with the queue's rest; on an empty queue the block idles (DESIGN
CHOICE, log entry 2). -/
def step (s : State) : Host.Outcome State Fault Refusal :=
  match s.pending with
  | [] => .next s
  | c :: rest => exec c (s.setPending rest)

/-- The command a table word spells is put at the front of the queue; no row gives bits, so no word spells
one (log entry 18). -/
def State.withFetchWord (s : State) (nbits w : Nat) : State :=
  match decodeTableWord nbits w with
  | some c => s.setPending (c :: s.pending)
  | none => s

end Sys2Proof.Machine
end

