-- ==== Sys2Proof/Safety.lean ====
section
/-! DEFINITION. What counts as a sound state of the part, and the words the statements use: when a port
can take a frame, what an answered request leaves alone, what postings leave alone. -/

namespace Sys2Proof.Machine

/-! ## Invariants of the part -/

/-- An event of the class is deliverable: the mask does not hold the class back, and the in-service stack is
empty or the class ranks above that of its top (R142). -/
def EventBlock.delivers (b : EventBlock) (c : EventClass) : Prop :=
  (match c with | .fault => b.mask.fault | .interval => b.mask.interval | .notice => b.mask.notice) = false ∧
    (b.stack = [] ∨ ∃ top rest, b.stack = top :: rest ∧ top.kind.cls.rank < c.rank)

/-- The queue holds a deliverable event: the marker, of class FAULT, or an ordinary entry (R139, R142). -/
def EventBlock.holdsDeliverable (b : EventBlock) : Prop :=
  (b.marker ≠ none ∧ b.delivers .fault) ∨ ∃ e ∈ b.queue, b.delivers e.kind.cls

/-- ALERTn# is asserted exactly while the port is ONLINE and its queue holds a deliverable event (R146). -/
def Port.AlertFollows (x : Port) : Prop :=
  x.alert = true ↔ x.session = .online ∧ x.events.holdsDeliverable

/-- Every ALERTn# has the level R146 gives it. -/
def State.AlertsFollow (s : State) : Prop := ∀ p, (s.port p).AlertFollows

/-- The cells held by every record of every ring. -/
def State.cellsInRings (s : State) : Nat := ((List.finRange 8).map fun g => cellsHeld (s.ring g)).sum

/-- Free cells and held cells total 1024 (R104). -/
def State.CellsConserved (s : State) : Prop := s.freeCells + s.cellsInRings = Config.poolCells

/-- How many view entries of all ports name a tally. -/
def State.bindings (s : State) (t : TallyId) : Nat := ((List.finRange 4).map fun p => s.entriesNaming p t).sum

/-- How many staged contributions of all ports name a tally. -/
def State.stagings (s : State) (t : TallyId) : Nat :=
  ((List.finRange 4).map fun p => (s.port p).fifo.countP fun e => e.tally == t).sum

/-- The counts of every tally agree with the views and the FIFOs, a FREE tally has neither, and a port
names a tally by at most one handle (R18, R27, R48). -/
def State.CountsAgree (s : State) : Prop :=
  (∀ t, (s.tally t).bindCount = s.bindings t ∧ (s.tally t).stagedCount = s.stagings t ∧
    ((s.tally t).state = .free → (s.tally t).bindCount = 0 ∧ (s.tally t).stagedCount = 0)) ∧
  ∀ p h h' e e', s.viewEntry p h = some e → s.viewEntry p h' = some e' → e.tally = e'.tally → h = h'

/-- A ring holds at most 4 records, no two of one interval number; while its group is OPEN every record is
READY, and while it is CLOSING exactly the newest is FILLING (R105). -/
def ringSound (st : GroupState) (ring : List SnapRecord) : Prop :=
  ring.length ≤ Config.ringPlaces ∧ ring.Pairwise (fun a b => a.interval ≠ b.interval) ∧
    match st with
    | .opened => ∀ r ∈ ring, r.state = .ready
    | .closing => ∃ old r, ring = old ++ [r] ∧ r.state = .filling ∧ ∀ o ∈ old, o.state = .ready

/-- A reader set holds no port twice (R88). A READY record has a reader and is not discard pending; a
FILLING one is discard pending exactly when it has none (R108). -/
def SnapRecord.readersSound (r : SnapRecord) : Prop :=
  r.readers.Nodup ∧
    match r.state with
    | .ready => r.readers ≠ [] ∧ r.discard = false
    | .filling => r.discard = true ↔ r.readers = []

/-- The snapshot store is sound (R105, R108). -/
def State.StoreSound (s : State) : Prop :=
  ∀ g, ringSound (s.group g).state (s.ring g) ∧ ∀ r ∈ s.ring g, r.readersSound

/-- An event block is sound: at most 15 entries, no two of one kind and subject (R137), the stack's
classes rising strictly from bottom to top (R142). -/
def EventBlock.Sound (b : EventBlock) : Prop :=
  b.queue.length ≤ Config.queuePlaces ∧
    b.queue.Pairwise (fun e f => ¬(e.kind = f.kind ∧ e.subject = f.subject)) ∧
    b.stack.Pairwise (fun above below => below.cls.rank < above.cls.rank)

/-- Every event block is sound, and that of an OFFLINE port is empty (R137, R142, R147). -/
def State.EventsSound (s : State) : Prop :=
  ∀ p, (s.port p).events.Sound ∧ ((s.port p).session = .offline → (s.port p).events = EventBlock.empty)

/-- The place of a step in a session end (R164). -/
def EndStep.index : EndStep → Nat
  | .views => 1
  | .readers => 2
  | .tallyAdmin => 3
  | .groupAdmin => 4
  | .events => 5

/-- Step `k` of the port's session end has been taken, or the port is OFFLINE. -/
def Port.past (x : Port) (k : Nat) : Prop :=
  x.session = .offline ∨ ∃ step, x.sessionEnd = some step ∧ k < step.index

/-- The slot is held WORKING by session work (R160). -/
def Slot.heldBySession : Slot → Prop
  | .working (.hello _) | .working (.leave _) | .working .portReset => True
  | _ => False

/-- The slot is held WORKING by a request, or by a port reset. -/
def Slot.heldByPost : Slot → Prop
  | .working (.request _) | .working .portReset => True
  | _ => False

/-- Sessions are sound: an OFFLINE port holds no view entry, reader-set place or administrator role
(R161), a port within a session end has lost what the steps so far tear down (R164), the session end holds
the slot WORKING (R160), and a POST in progress holds it too, on an ONLINE port whose session end has taken
no step (R165). -/
def State.SessionsSound (s : State) : Prop :=
  ∀ p,
    ((s.port p).session = .offline → (s.port p).sessionEnd = none) ∧
    ((s.port p).sessionEnd ≠ none → (s.port p).slot.heldBySession) ∧
    ((s.port p).posting ≠ none → (s.port p).session = .online ∧ (s.port p).slot.heldByPost ∧
      ((s.port p).sessionEnd = none ∨ (s.port p).sessionEnd = some .views)) ∧
    ((s.port p).past 1 → ∀ h, s.viewEntry p h = none) ∧
    ((s.port p).past 2 → ∀ g, ∀ r ∈ s.ring g, p ∉ r.readers) ∧
    ((s.port p).past 3 → ∀ t, (s.tally t).admin ≠ some p) ∧
    ((s.port p).past 4 → ∀ g, (s.group g).admin ≠ some p)

/-- During a close of group `g` with the filling record `r`: each member is defined, of the group, and
either copied with the group's new tag or uncopied with the closed interval's; the members the copier has
acted on are copied (R80, R97). -/
def State.memberSound (s : State) (g : GroupId) (r : SnapRecord) : Prop :=
  r.members.Nodup ∧ r.cells.length = r.members.length ∧ r.interval + 1 = (s.group g).interval ∧
    ∀ (i : Nat) (t : TallyId), r.members[i]? = some t →
      (s.tally t).defined = true ∧ (s.tally t).group = g ∧
        ((∃ c, r.cells[i]? = some (some c) ∧ (s.tally t).tag = (s.group g).interval) ∨
          (r.cells[i]? = some none ∧ (s.tally t).tag = r.interval ∧ (s.group g).walk ≤ i))

/-- Interval tags are sound (R80): a defined tally that is no member of a filling record carries its
group's number, and the members of one are as `memberSound` says. -/
def State.TagsSound (s : State) : Prop :=
  (∀ g, ∀ r ∈ s.ring g, r.state = .filling → s.memberSound g r) ∧
    ∀ t, (s.tally t).defined = true →
      (∀ r ∈ s.ring (s.tally t).group, r.state = .filling → t ∉ r.members) →
        (s.tally t).tag = (s.group (s.tally t).group).interval

/-- A present limit of a tally of kind `k`: its level in the kind's range, its hysteresis a 32-bit number
(R12, R122). -/
def Limit.Sound (k : Kind) (l : Limit) : Prop := k.holds l.level = true ∧ l.hyst < 2 ^ 32

/-- The fields of a tally record lie in their ranges: a SUM value present and in its kind's range, a PEAK
value absent or in range and without limits, bound by at most the 4 ports and named by at most the 32 staged
contributions of their FIFOs (R2, R6, R7, R11, R12). -/
def Tally.FieldsSound (x : Tally) : Prop :=
  (x.value = none → x.kind = .peak) ∧ (∀ v, x.value = some v → x.kind.holds v = true) ∧
    x.count < 2 ^ 32 ∧ x.rollover < 256 ∧ x.rejected < 256 ∧ x.dropped < 256 ∧
    x.bindCount ≤ 4 ∧ x.stagedCount ≤ 32 ∧ (x.kind = .peak → x.upper = none ∧ x.lower = none) ∧
    (∀ l, x.upper = some l → l.Sound x.kind) ∧ (∀ l, x.lower = some l → l.Sound x.kind)

/-- A weight lies in 1 to 65535 (R25, R47). -/
def weightSound (w : Nat) : Prop := 1 ≤ w ∧ w < 65536

/-- A staged contribution of port `p`: its weight and its 32-bit quantity in range, its posting port the
FIFO's own (R47). -/
def Staged.Sound (p : PortId) (e : Staged) : Prop :=
  weightSound e.weight ∧ -2 ^ 31 ≤ e.quantity ∧ e.quantity < 2 ^ 31 ∧ e.port = p

/-- A merge count lies in 1 to 255 (R134, R139). -/
def mergesSound (n : Nat) : Prop := 1 ≤ n ∧ n ≤ 255

/-- The merge counts of queued entries, of the marker and of in-service entries lie in their range (R134,
R139, R143). -/
def EventBlock.FieldsSound (b : EventBlock) : Prop :=
  (∀ e ∈ b.queue ++ b.stack, mergesSound e.merged) ∧ ∀ n, b.marker = some n → mergesSound n

/-- A copied cell lies in its range: an absent value or one that a tally can hold, and a 32-bit count (R2, R6,
R107). -/
def SnapCell.Sound (c : SnapCell) : Prop :=
  (∀ v, c.value = some v → -2 ^ 63 ≤ v ∧ v < 2 ^ 64) ∧ c.count < 2 ^ 32

/-- A record's missed-before count and its copied cells lie in their ranges (R106, R107). -/
def SnapRecord.FieldsSound (r : SnapRecord) : Prop :=
  r.missedBefore < 256 ∧ ∀ c, some c ∈ r.cells → c.Sound

/-- The view table, the staging FIFO and the event block of a port lie in their ranges (R25, R47, R134, R139). -/
def Port.FieldsSound (p : PortId) (x : Port) : Prop :=
  (∀ h : HandleId, ∀ e, x.view[h] = some e → weightSound e.weight) ∧
    x.fifo.length ≤ Config.fifoPlaces ∧ (∀ e ∈ x.fifo, e.Sound p) ∧ x.events.FieldsSound

/-- A group record's fields lie in their ranges: the countdown runs from 1 to the period, and is 0 when
the period is (R79, R85). -/
def Group.FieldsSound (x : Group) : Prop :=
  x.period < 65536 ∧ x.countdown ≤ x.period ∧ (x.countdown = 0 ↔ x.period = 0) ∧ x.missed < 256

/-- The numbers in tally records, view entries, staged contributions, event records, group records and snapshot
records lie in the ranges the manual gives them (R2, R6, R7, R11, R12, R25, R47, R79, R85, R106, R107, R134,
R139). -/
def State.FieldsSound (s : State) : Prop :=
  (∀ t, (s.tally t).FieldsSound) ∧ (∀ p, (s.port p).FieldsSound p) ∧
    ∀ g, (s.group g).FieldsSound ∧ ∀ r ∈ s.ring g, r.FieldsSound

/-! ## Words of the statements: what a step leaves alone -/

/-- Port `p` can take a frame: RESET# and PRSTn# are released, the select is high and the slot is EMPTY
(R154). -/
def State.canTake (s : State) (p : PortId) : Prop :=
  s.resetPin = false ∧ (s.port p).prst = false ∧ (s.port p).link = .idle ∧ (s.port p).slot = .empty

/-- Port `p` can take a frame and its session is ONLINE, so that every request is served (R157, R161). -/
def State.serves (s : State) (p : PortId) : Prop := s.canTake p ∧ (s.port p).session = .online

/-- Session, session number, session end, POST in progress, link state and PRSTn# are left as they were. -/
def Port.sameEngine (x y : Port) : Prop :=
  y.session = x.session ∧ y.number = x.number ∧ y.sessionEnd = x.sessionEnd ∧ y.posting = x.posting ∧
    y.link = x.link ∧ y.prst = x.prst

/-- View table, staging FIFO and event block are left as they were. -/
def Port.sameTables (x y : Port) : Prop := y.view = x.view ∧ y.fifo = x.fifo ∧ y.events = x.events

/-- The port is left as it was, but for its slot, refusal reason, SOn and ALERTn#. -/
def Port.sameButAnswer (x y : Port) : Prop := x.sameEngine y ∧ x.sameTables y

/-- The port is left as it was, but for its link state, SOn and ALERTn#. -/
def Port.sameButLink (x y : Port) : Prop :=
  y.session = x.session ∧ y.number = x.number ∧ y.sessionEnd = x.sessionEnd ∧ y.posting = x.posting ∧
    y.prst = x.prst ∧ y.slot = x.slot ∧ y.reason = x.reason ∧ x.sameTables y

/-- The port is left as it was, but for its event block and ALERTn#. -/
def Port.sameButEvents (x y : Port) : Prop :=
  x.sameEngine y ∧ y.slot = x.slot ∧ y.reason = x.reason ∧ y.so = x.so ∧ y.view = x.view ∧ y.fifo = x.fifo

/-- Every port but `p` is left as it was. -/
def State.samePortsBut (s t : State) (p : PortId) : Prop := ∀ q, q ≠ p → t.port q = s.port q

/-- Every tally record but that of `u` is left as it was. -/
def State.sameTalliesBut (s t : State) (u : TallyId) : Prop := ∀ v, v ≠ u → t.tally v = s.tally v

/-- Every tally record is left as it was. -/
def State.sameTallies (s t : State) : Prop := ∀ v, t.tally v = s.tally v

/-- Every group record but that of `g` is left as it was. -/
def State.sameGroupsBut (s t : State) (g : GroupId) : Prop := ∀ k, k ≠ g → t.group k = s.group k

/-- Every group record is left as it was. -/
def State.sameGroups (s t : State) : Prop := ∀ g, t.group g = s.group g

/-- Every ring but that of `g` is left as it was. -/
def State.sameRingsBut (s t : State) (g : GroupId) : Prop := ∀ k, k ≠ g → t.ring k = s.ring k

/-- The rings and the pool are left as they were. -/
def State.sameStore (s t : State) : Prop := (∀ g, t.ring g = s.ring g) ∧ t.freeCells = s.freeCells

/-- The arbiter's pointer, the RESET# level and the queue are left as they were. -/
def State.sameRest (s t : State) : Prop :=
  t.pointer = s.pointer ∧ t.resetPin = s.resetPin ∧ t.pending = s.pending

/-- All but the ports is left as it was. -/
def State.sameBehindPorts (s t : State) : Prop :=
  s.sameTallies t ∧ s.sameGroups t ∧ s.sameStore t ∧ s.sameRest t

/-! ## Words of the statements: answers and postings -/

/-- The request of port `p` is answered: the response is READY with the tag, the status, the session
number and the payload, and the refusal reason is NONE (R156, R158). -/
def State.answeredTo (s t : State) (p : PortId) (tag : Byte) (st : Status) (payload : List Byte) : Prop :=
  (t.port p).slot = .ready ⟨tag, st, (s.port p).number, payload⟩ ∧ (t.port p).reason = .none

/-- The request of port `p` is answered and nothing else changes. -/
def State.onlyAnswered (s t : State) (p : PortId) (tag : Byte) (st : Status) (payload : List Byte) : Prop :=
  s.answeredTo t p tag st payload ∧ (s.port p).sameButAnswer (t.port p) ∧ s.samePortsBut t p ∧
    s.sameBehindPorts t

/-- Beside the answer to port `p`, the record of tally `u` alone may change. -/
def State.onlyTally (s t : State) (p : PortId) (u : TallyId) : Prop :=
  (s.port p).sameButAnswer (t.port p) ∧ s.samePortsBut t p ∧ s.sameTalliesBut t u ∧ s.sameGroups t ∧
    s.sameStore t ∧ s.sameRest t

/-- Beside the answer to port `p`, the record of tally `u` and the ports' event blocks alone may change. -/
def State.onlyTallyAndEvents (s t : State) (p : PortId) (u : TallyId) : Prop :=
  (s.port p).sameEngine (t.port p) ∧ (t.port p).view = (s.port p).view ∧ (t.port p).fifo = (s.port p).fifo ∧
    (∀ q, q ≠ p → (s.port q).sameButEvents (t.port q)) ∧ s.sameTalliesBut t u ∧ s.sameGroups t ∧
    s.sameStore t ∧ s.sameRest t

/-- Beside the answer to port `p`, the record of group `g` alone may change. -/
def State.onlyGroup (s t : State) (p : PortId) (g : GroupId) : Prop :=
  (s.port p).sameButAnswer (t.port p) ∧ s.samePortsBut t p ∧ s.sameTallies t ∧ s.sameGroupsBut t g ∧
    s.sameStore t ∧ s.sameRest t

/-- Some events, in order, posted to an event block (R137). -/
def EventBlock.postAll (b : EventBlock) (l : List (EventKind × Subject × Detail)) : EventBlock :=
  l.foldl (fun b e => b.post e.1 e.2.1 e.2.2) b

/-- Each port's event block after a step in which the events `sent q`, in order, were addressed to port
`q`: an OFFLINE port's are discarded (R136). -/
def State.eventsAre (s t : State) (sent : PortId → List (EventKind × Subject × Detail)) : Prop :=
  ∀ q, (t.port q).events =
    if (s.port q).session = .online then (s.port q).events.postAll (sent q) else (s.port q).events

/-- The events of some limit moves of tally `u`, as a watcher receives them; other ports receive none
(R128). -/
def State.limitEvents (s : State) (u : TallyId) (moves : List (EventKind × Side)) (q : PortId) :
    List (EventKind × Subject × Detail) :=
  if s.bound q u = true ∧ (s.rightsOf q u).watch = true then moves.map fun m => (m.1, .tally u, .side m.2)
  else []

/-! ## Words of the statements: requests -/

/-- The command that carries a request. -/
def requestCommand (r : Req) (p : PortId) (tag : Byte) (pl : List Byte) : Instr :=
  match r with
  | .hello => .hello p tag ⟨pl, true⟩
  | .leave => .leave p tag pl
  | .setMask => .setMask p tag pl
  | .takeEvent => .takeEvent p tag pl
  | .ackEvent => .ackEvent p tag pl
  | .define => .define p tag pl
  | .retire => .retire p tag pl
  | .grant => .grant p tag pl
  | .freeze => .freeze p tag pl
  | .resume => .resume p tag pl
  | .claimTally => .claimTally p tag pl
  | .setLimit => .setLimit p tag pl
  | .bind => .bind p tag pl
  | .unbind => .unbind p tag pl
  | .post => .post p tag pl .whole
  | .drain => .drain p tag pl
  | .read => .read p tag pl
  | .take => .take p tag pl
  | .exchange => .exchange p tag pl
  | .clearFlags => .clearFlags p tag pl
  | .claimGroup => .claimGroup p tag pl
  | .setGroup => .setGroup p tag pl
  | .close => .close p tag pl
  | .groupStatus => .groupStatus p tag pl
  | .snapList => .snapList p tag pl
  | .readSnap => .readSnap p tag pl
  | .release => .release p tag pl

/-- The port whose link a command's transaction runs on. -/
def transactionPort : Instr → Option PortId
  | .status p _ _ | .fetch p _ _ | .unknownType p _ _ _ | .frameRefused p _ _ => some p
  | .abandonedTransactionEnd p _ | .transactionWithoutType p _ | .unknownRequest p _ _ _ => some p
  | .hello p _ _ | .leave p _ _ | .setMask p _ _ | .takeEvent p _ _ | .ackEvent p _ _ => some p
  | .define p _ _ | .retire p _ _ | .grant p _ _ | .freeze p _ _ | .resume p _ _ => some p
  | .claimTally p _ _ | .setLimit p _ _ | .bind p _ _ | .unbind p _ _ => some p
  | .post p _ _ .whole | .post p _ _ .taken => some p
  | .post _ _ _ .entry => none
  | .drain p _ _ | .read p _ _ | .take p _ _ | .exchange p _ _ | .clearFlags p _ _ => some p
  | .claimGroup p _ _ | .setGroup p _ _ | .close p _ _ | .groupStatus p _ _ => some p
  | .snapList p _ _ | .readSnap p _ _ | .release p _ _ => some p
  | .helloOpenSession _ | .sessionEndViews _ | .sessionEndReaders _ | .sessionEndTallyAdmin _ => none
  | .sessionEndGroupAdmin _ | .sessionEndEvents _ | .apply | .tick | .timedCloseAttempt _ => none
  | .copierStep _ | .closeEnd _ | .prstAssert _ | .prstRelease _ | .resetAssert | .resetRelease => none

/-- The command is a REQUEST transaction of port `p` for the request `r`. -/
def carriesRequest (c : Instr) (r : Req) (p : PortId) (tag : Byte) (pl : List Byte) : Prop :=
  c = requestCommand r p tag pl ∨ (r = .post ∧ c = .post p tag pl .taken) ∨
    (r = .hello ∧ c = .hello p tag ⟨pl, false⟩)

/-- Every field of a payload of the right length is in range and names a defined choice: what the first
check of each request asks (R15, R28, R32, R73, R82, R84, R115, R117, R129, R141, R168). -/
def fieldsInRange (r : Req) (pl : List Byte) : Prop :=
  let b := fun i => (byteAt pl i).toNat
  match r with
  | .hello | .leave | .takeEvent | .ackEvent | .drain | .post => True
  | .setMask => b 0 < 8
  | .retire | .freeze | .resume | .claimTally | .unbind | .read | .take | .clearFlags => b 0 < 64
  | .grant => b 0 < 64 ∧ b 1 < 4 ∧ b 2 < 16
  | .define => b 0 < 3 ∧ b 1 < 8 ∧ b 2 < 2 ∧ b 3 < 2
  | .setLimit => b 0 < 64 ∧ b 1 < 2 ∧ b 2 < 3 ∧ b 3 < 2
  | .bind => b 0 < 64 ∧ (b 2 ≠ 0 ∨ b 3 ≠ 0)
  | .exchange => b 0 < 64 ∧ b 1 < 2 ∧ b 10 < 2
  | .claimGroup | .close | .groupStatus | .snapList | .release => b 0 < 8
  | .setGroup => b 0 < 8 ∧ b 3 < 2
  | .readSnap => b 0 < 8 ∧ 1 ≤ b 6 ∧ b 6 ≤ 8

/-- The requests whose first byte is a handle, POST apart (R32). -/
def namesAHandle : Req → Bool
  | .retire | .grant | .freeze | .resume | .claimTally | .setLimit | .unbind => true
  | .read | .take | .exchange | .clearFlags => true
  | _ => false

/-- The standing a handle-addressed request needs on the tally, and the refusal when it is missing (R33). -/
def State.standing (s : State) (p : PortId) (u : TallyId) : Req → Option Status
  | .read | .clearFlags => if (s.rightsOf p u).read then none else some .noRight
  | .take | .exchange => if (s.rightsOf p u).draw then none else some .noRight
  | .retire | .grant | .freeze | .resume | .setLimit =>
    if (s.tally u).admin = some p then none else some .notAdmin
  | .claimTally => if (s.tally u).admin = none then none else some .notVacant
  | _ => none

/-- A value or level as a host offers it: a sign byte and eight bytes of magnitude (R73, R168). -/
def signedBytes (minus : Bool) (magnitude : Nat) : List Byte := boolByte minus :: beBytes 8 magnitude

/-- The number such bytes stand for; minus 0 is 0 (R73). -/
def signedValue (minus : Bool) (magnitude : Nat) : Int := if minus then -(magnitude : Int) else magnitude

/-- The status a POST entry's own checks give (R43). -/
def State.entryStatus (s : State) (p : PortId) (h : Byte) : Status :=
  if hh : h.toNat < 64 then
    match s.viewEntry p ⟨h.toNat, hh⟩ with
    | none => .noHandle
    | some e => if (s.rightsOf p e.tally).post then .ok else .noRight
  else .badArg

/-- The contribution a POST entry stages when its checks pass (R47). -/
def State.contributionOf (s : State) (p : PortId) (h : Byte) (q : BitVec 32) : Option Staged :=
  if hh : h.toNat < 64 then (s.viewEntry p ⟨h.toNat, hh⟩).map fun e => ⟨e.tally, e.weight, q.toInt, p⟩
  else none

/-- The entry statuses of a POST whose entries' checks give `checks`, on a FIFO with `room` free places:
from the first passing entry that finds no place on, every entry is FULL (R44). -/
def postStatuses : Nat → List Status → List Status
  | _, [] => []
  | 0, .ok :: rest => .full :: rest.map fun _ => .full
  | n + 1, .ok :: rest => .ok :: postStatuses n rest
  | n, st :: rest => st :: postStatuses n rest

/-- The payload of a POST with the given entries (R169). -/
def postPayload (es : List (Byte × BitVec 32)) : List Byte :=
  byteOf es.length :: es.flatMap fun e => e.1 :: beBytes 4 e.2.toNat

/-- The contributions a POST stages: those of the entries whose status is OK, in payload order (R44). -/
def State.stagedBy (s : State) (p : PortId) (es : List (Byte × BitVec 32)) (sts : List Status) : List Staged :=
  (es.zip sts).filterMap fun e => if e.2 = .ok then s.contributionOf p e.1.1 e.1.2 else none

/-! ## Words of the statements: applies and closes -/

/-- The arbiter's turn: from the pointer on, port `q` is the first whose FIFO holds an entry, and `e` is
its head (R52). -/
def State.turnOf (s : State) (q : PortId) (e : Staged) (rest : List Staged) : Prop :=
  (s.port q).fifo = e :: rest ∧
    ∃ k : Fin 4, q = s.pointer + k ∧ ∀ j : Fin 4, j < k → (s.port (s.pointer + j)).fifo = []

/-- What becomes of a record when port `p` leaves its reader set: none when it is removed (R108). -/
def SnapRecord.afterLeaving (r : SnapRecord) (p : PortId) : Option SnapRecord :=
  if p ∈ r.readers then
    let rest := r.readers.filter (· ≠ p)
    if rest ≠ [] then some { r with readers := rest }
    else match r.state with
      | .ready => none
      | .filling => some { r with readers := [], discard := true }
  else some r

/-- The cells freed when port `p` leaves the reader sets of the records of a ring that `which` picks. -/
def cellsFreedBy (ring : List SnapRecord) (p : PortId) (which : SnapRecord → Bool) : Nat :=
  cellsHeld (ring.filter fun r => which r && (r.afterLeaving p).isNone)

/-- The SNAPSHOT_LOST events of the `k` oldest records of a ring, as port `q` receives them (R111). -/
def State.lostEvents (s : State) (g : GroupId) (k : Nat) (q : PortId) : List (EventKind × Subject × Detail) :=
  ((s.ring g).take k).filterMap fun r =>
    if q ∈ r.readers then some (.snapshotLost, .group g, .interval r.interval) else none

/-- A close of group `g` started, for cause `c`, from the group record `x`, after the `k` oldest records
were dropped: the new FILLING record, the reserved cells, the group record, and SNAPSHOT_LOST to the
dropped records' readers; no member's record is touched (R93, R110, R111). -/
def State.closeStarted (s t : State) (g : GroupId) (x : Group) (c : Cause) (k : Nat) : Prop :=
  let members := s.membersOf g
  t.ring g = (s.ring g).drop k ++
      [⟨g, x.interval, .filling, c, x.missed, members, members.map fun _ => none, s.readersOf members, false⟩] ∧
    t.freeCells + members.length = s.freeCells + cellsHeld ((s.ring g).take k) ∧
    t.group g = { x with state := .closing, interval := x.interval + 1, missed := 0, walk := 0 } ∧
    s.eventsAre t (s.lostEvents g k) ∧
    s.sameTallies t ∧ s.sameGroupsBut t g ∧ s.sameRingsBut t g ∧ s.sameRest t

/-- An unobserved close of group `g` from the group record `x`: the interval advances, every member starts
it, and no event is posted (R90). -/
def State.closedUnobserved (s t : State) (g : GroupId) (x : Group) : Prop :=
  t.group g = { x with interval := x.interval + 1 } ∧
    (∀ u, (s.tally u).defined = true → (s.tally u).group = g →
      t.tally u = (s.tally u).startInterval (x.interval + 1)) ∧
    (∀ u, ¬((s.tally u).defined = true ∧ (s.tally u).group = g) → t.tally u = s.tally u) ∧
    s.eventsAre t (fun _ => []) ∧ s.sameGroupsBut t g ∧ s.sameStore t ∧ s.sameRest t

/-- The status byte repeated over `n` bits, as SOn carries it (R151). -/
def statusOut (x : Port) (n : Nat) : List Bool := (List.range n).map fun i => x.statusByte.getMsbD (i % 8)

end Sys2Proof.Machine
end

