-- ==== Sys2Proof/Certificates/Slice0/Obligations.lean ====
section
/-! DEFINITION. The statements for the provers. A command on port `p` is one whole transaction; its payload is
written byte by byte from the layouts of chapter 10. -/

open Sys2Proof Sys2Proof.Machine

/-! ## The step and the whole command set -/

/-- One step runs the command at the front of the queue on the state with the queue's rest; on an empty
queue the block idles (the model's choice, log entry 2). -/
def Obligations.StepRunsTheFrontCommand : Prop :=
  ∀ (s : State) (c : Instr) (rest : List Instr),
    (s.pending = c :: rest → step s = exec c (s.setPending rest)) ∧ (s.pending = [] → step s = .next s)

/-- Every command answers a next state, from every state, and leaves the queue alone: the spec names no
command that stops the part. That an internal action which is not due answers a next state too is the model's
choice (log entry 3), and the queue is the model's own (log entry 2). -/
def Obligations.EveryCommandCompletes : Prop :=
  ∀ (c : Instr) (s : State), ∃ t, exec c s = .next t ∧ t.pending = s.pending

/-- Kind, group, overflow policy and reset-on-close of a tally stand while it is defined (R4), and the rights on
a defined tally change only by a transaction of its administrator (R9, R10, R19). -/
def Obligations.DefinedTalliesKeepTheirMake : Prop :=
  ∀ (s t : State) (c : Instr) (u : TallyId), exec c s = .next t →
    (s.tally u).state ≠ .free → (t.tally u).state ≠ .free →
      (t.tally u).kind = (s.tally u).kind ∧ (t.tally u).group = (s.tally u).group ∧
        (t.tally u).policy = (s.tally u).policy ∧ (t.tally u).resetOnClose = (s.tally u).resetOnClose ∧
        ((t.tally u).rights ≠ (s.tally u).rights →
          ∃ p, (s.tally u).admin = some p ∧ transactionPort c = some p)

/-! ## RESET# and PRSTn# -/

/-- RESET# asserted returns every block to its reset values and abandons every transaction; while it is
asserted no apply, close, evaluation, posting or TICK count takes place and no transaction has an effect;
its release changes nothing else (R24, R40, R51, R81, R121, R149, R155, R166). SOn at high impedance is written
as no bits (the model's choice, log entry 9), and that the level of PRSTn# outlives RESET# is deduced (log
entry 12). -/
def Obligations.ResetReturnsEveryBlock : Prop :=
  ∀ s : State,
    (∃ t, exec .resetAssert s = .next t ∧ t.resetPin = true ∧ (∀ u, t.tally u = Tally.cleared) ∧
      (∀ g, t.group g = Group.atReset ∧ t.ring g = []) ∧ t.freeCells = 1024 ∧ t.pointer = 0 ∧
      ∀ p, (t.port p).session = .offline ∧ (t.port p).number = 0 ∧ (t.port p).slot = .empty ∧
        (t.port p).reason = .none ∧ (t.port p).sessionEnd = none ∧ (t.port p).posting = none ∧
        (∀ h, t.viewEntry p h = none) ∧
        (t.port p).fifo = [] ∧ (t.port p).events = ⟨[], none, ⟨false, false, false⟩, []⟩ ∧
        (t.port p).alert = false ∧ (t.port p).so = [] ∧ (t.port p).prst = (s.port p).prst ∧
        (t.port p).link = if (s.port p).link = .idle then .idle else .abandoned) ∧
    (∃ t, exec .resetRelease s = .next t ∧ t.resetPin = false ∧ s.sameTallies t ∧ s.sameGroups t ∧
      s.sameStore t ∧ t.pointer = s.pointer ∧ ∀ p, t.port p = s.port p) ∧
    ∀ c : Instr, s.resetPin = true → c ≠ .resetAssert → c ≠ .resetRelease →
      ∃ t, exec c s = .next t ∧ s.sameBehindPorts t ∧ ∀ p,
        (t.port p).session = (s.port p).session ∧ (t.port p).number = (s.port p).number ∧
          (t.port p).slot = (s.port p).slot ∧ (t.port p).reason = (s.port p).reason ∧
          (t.port p).sessionEnd = (s.port p).sessionEnd ∧ (t.port p).posting = (s.port p).posting ∧
          (s.port p).sameTables (t.port p)

/-- PRSTn# asserted abandons the port's transaction, discards its response and, when it is ONLINE, begins a
session end unless one is in progress; PRSTn# released leaves the port as it stands (R155, R165). -/
def Obligations.PortResetBeginsASessionEnd : Prop :=
  ∀ (s : State) (p : PortId), s.resetPin = false →
    ((s.port p).prst = false →
      ∃ t, exec (.prstAssert p) s = .next t ∧ (t.port p).prst = true ∧
        (t.port p).link = (if (s.port p).link = .idle then .idle else .abandoned) ∧
        ((s.port p).session = .offline →
          (t.port p).slot = .empty ∧ (t.port p).sessionEnd = (s.port p).sessionEnd) ∧
        ((s.port p).session = .online → (t.port p).slot = .working .portReset ∧
          ((s.port p).sessionEnd = none → (t.port p).sessionEnd = some .views) ∧
          ((s.port p).sessionEnd ≠ none → (t.port p).sessionEnd = (s.port p).sessionEnd)) ∧
        (t.port p).session = (s.port p).session ∧ (t.port p).number = (s.port p).number ∧
        (t.port p).reason = (s.port p).reason ∧ (t.port p).posting = (s.port p).posting ∧
        (s.port p).sameTables (t.port p) ∧ s.samePortsBut t p ∧ s.sameBehindPorts t) ∧
    ((s.port p).prst = true →
      ∃ t, exec (.prstRelease p) s = .next t ∧ (t.port p).prst = false ∧
        (t.port p).session = (s.port p).session ∧ (t.port p).number = (s.port p).number ∧
        (t.port p).slot = (s.port p).slot ∧ (t.port p).reason = (s.port p).reason ∧
        (t.port p).link = (s.port p).link ∧ (t.port p).sessionEnd = (s.port p).sessionEnd ∧
        (t.port p).posting = (s.port p).posting ∧
        (s.port p).sameTables (t.port p) ∧ s.samePortsBut t p ∧ s.sameBehindPorts t)

/-! ## The link -/

/-- A STATUS transaction shifts out the status byte formed at select fall, then a byte formed afresh at the
start of each further byte, and changes nothing (R151, R152). The first clause is a transaction from its
select fall. The second goes on with one whose select is still low, `out` bits of `cur` being out: all bits of
the command, those of its type byte too, are clocked into it (deduced, log entry 7). The premise that the pin
has the level of R146 is the invariant AlertsFollow. -/
def Obligations.StatusReportsAndChangesNothing : Prop :=
  ∀ (s : State) (p : PortId) (n : Nat) (rises : Bool), s.resetPin = false → (s.port p).AlertFollows →
    let byte := (s.port p).statusByte
    let leaves := fun (t : State) (out : Nat) =>
      (rises = true → (t.port p).link = .idle) ∧
        (rises = false → ∃ o, (t.port p).link = .status byte o ∧ 1 ≤ o ∧ o ≤ 8 ∧ o % 8 = (out + n) % 8) ∧
        (s.port p).sameButLink (t.port p) ∧ s.samePortsBut t p ∧ s.sameBehindPorts t
    ((s.port p).link = .idle →
      ∃ t, exec (.status p n rises) s = .next t ∧ (t.port p).so = statusOut (s.port p) (8 + n) ∧ leaves t 8) ∧
    ∀ cur out, (s.port p).link = .status cur out → 1 ≤ out → out ≤ 8 →
      ∃ t, exec (.status p n rises) s = .next t ∧
        (t.port p).so = (s.port p).so ++ (List.range (8 + n)).map (fun k =>
          if out + k < 8 then cur.getMsbD (out + k) else byte.getMsbD ((out + k) % 8)) ∧ leaves t out

/-- A FETCH shifts out, after the status byte, the response that stood READY at select fall, from its tag to
its check byte, then filler; else the marker FFH, FFH. At select high the slot empties exactly when the whole
settled response was clocked out (R153, R158, R159, R167). The third clause goes on with a FETCH whose select is
still low, `out` bits being out: all bits of the command, those of its type byte too, are clocked into it
(deduced, log entry 7). -/
def Obligations.FetchShiftsTheSettledResponse : Prop :=
  ∀ (s : State) (p : PortId) (n : Nat) (rises : Bool), s.resetPin = false →
    (∀ r : Response, (s.port p).link = .idle → (s.port p).slot = .ready r →
      let body := [r.tag, r.status.code, r.session, byteOf r.payload.length] ++ r.payload
      ∃ t, exec (.fetch p n rises) s = .next t ∧
        (t.port p).so = statusOut (s.port p) 8 ++ streamBits (body ++ [crc8 body]) 0 n ∧
        (t.port p).slot = (if rises = true ∧ 8 * (r.payload.length + 5) ≤ n then .empty else .ready r) ∧
        (rises = true → (t.port p).link = .idle) ∧ (rises = false → (t.port p).link = .fetch (some r) n) ∧
        (t.port p).session = (s.port p).session ∧ (t.port p).number = (s.port p).number ∧
        (t.port p).reason = (s.port p).reason ∧ (t.port p).sessionEnd = (s.port p).sessionEnd ∧
        (t.port p).prst = (s.port p).prst ∧ (t.port p).posting = (s.port p).posting ∧
        (s.port p).sameTables (t.port p) ∧ s.samePortsBut t p ∧ s.sameBehindPorts t) ∧
    ((s.port p).link = .idle → (∀ r, (s.port p).slot ≠ .ready r) →
      ∃ t, exec (.fetch p n rises) s = .next t ∧
        (t.port p).so = statusOut (s.port p) 8 ++ streamBits [0xFF, 0xFF] 0 n ∧
        (rises = true → (t.port p).link = .idle) ∧ (rises = false → (t.port p).link = .fetch none n) ∧
        (s.port p).sameButLink (t.port p) ∧ s.samePortsBut t p ∧ s.sameBehindPorts t) ∧
    (∀ settled out, (s.port p).link = .fetch settled out →
      ∃ t, exec (.fetch p n rises) s = .next t ∧
        (t.port p).so = (s.port p).so ++ streamBits (fetchStream settled) out (8 + n) ∧
        (rises = true → ∀ r, settled = some r → 8 * (r.payload.length + 5) ≤ out + 8 + n →
          (∃ r', (s.port p).slot = .ready r') → (t.port p).slot = .empty) ∧
        ((rises = false ∨ settled = none ∨ ∃ r, settled = some r ∧ out + 8 + n < 8 * (r.payload.length + 5)) →
          (t.port p).slot = (s.port p).slot) ∧
        (t.port p).link = (if rises then .idle else .fetch settled (out + 8 + n)) ∧
        (t.port p).session = (s.port p).session ∧ (t.port p).number = (s.port p).number ∧
        (t.port p).sessionEnd = (s.port p).sessionEnd ∧ (t.port p).prst = (s.port p).prst ∧
        (t.port p).reason = (s.port p).reason ∧ (t.port p).posting = (s.port p).posting ∧
        (s.port p).sameTables (t.port p) ∧ s.samePortsBut t p ∧ s.sameBehindPorts t)

/-- A transaction of unknown type shifts out filler and latches TYPE at select high; one that ends before its
type byte is complete, and the end of an abandoned one, latch nothing and change nothing (R151, R155). SOn
carries the status byte until the type byte is complete, and filler in the rest of an abandoned transaction
(R167; once RESET# or PRSTn# is released, log entry 6). Eight bits spell the type byte, and a transaction in two
pieces with nothing between them is the transaction of all their bits (R151; deduced, log entries 7 and 10). -/
def Obligations.OddTransactionsChangeAtMostTheReason : Prop :=
  ∀ (s : State) (p : PortId), s.resetPin = false →
    let onlyLink := fun t : State => (s.port p).sameButLink (t.port p) ∧ s.samePortsBut t p ∧ s.sameBehindPorts t
    let typeAtHigh := fun (t : State) (rises : Bool) =>
      (t.port p).reason = (if rises then .type else (s.port p).reason) ∧
        (t.port p).link = (if rises then .idle else .unknown) ∧ (t.port p).slot = (s.port p).slot ∧
        (t.port p).session = (s.port p).session ∧ (t.port p).number = (s.port p).number ∧
        (t.port p).sessionEnd = (s.port p).sessionEnd ∧ (t.port p).prst = (s.port p).prst ∧
        (t.port p).posting = (s.port p).posting ∧ (s.port p).sameTables (t.port p) ∧ s.samePortsBut t p ∧
        s.sameBehindPorts t
    (∀ (ty : Byte) (n : Nat) (rises : Bool),
      (typeByteKnown ty = false → (s.port p).link = .idle →
        ∃ t, exec (.unknownType p ty n rises) s = .next t ∧
          (t.port p).so = statusOut (s.port p) 8 ++ List.replicate n false ∧ typeAtHigh t rises) ∧
      ((s.port p).link = .unknown → ∃ t, exec (.unknownType p ty n rises) s = .next t ∧
        (t.port p).so = (s.port p).so ++ List.replicate (8 + n) false ∧ typeAtHigh t rises)) ∧
    (∀ (si : List Bool) (rises : Bool), si.length < 8 → (s.port p).link = .idle →
      ∃ t, exec (.transactionWithoutType p ⟨si, rises⟩) s = .next t ∧
        (t.port p).so = statusOut (s.port p) si.length ∧ (rises = true → (t.port p).link = .idle) ∧
        (rises = false → (t.port p).link = .typing (s.port p).statusByte
          (match (s.port p).slot with | .ready r => some r | _ => none) si) ∧ onlyLink t) ∧
    (∀ (first : Byte) (settled : Option Response) (rx si : List Bool) (rises : Bool),
      (s.port p).link = .typing first settled rx → (rx ++ si).length < 8 →
        ∃ t, exec (.transactionWithoutType p ⟨si, rises⟩) s = .next t ∧
          (t.port p).so = (s.port p).so ++ (List.range si.length).map (fun k => first.getMsbD (rx.length + k)) ∧
          (t.port p).link = (if rises then .idle else .typing first settled (rx ++ si)) ∧ onlyLink t) ∧
    (∀ (si : List Bool) (rises : Bool), (s.port p).link = .idle →
      exec (.transactionWithoutType p ⟨byteBits 0x3C ++ si, rises⟩) s = exec (.status p si.length rises) s ∧
      exec (.transactionWithoutType p ⟨byteBits 0xA5 ++ si, rises⟩) s = exec (.fetch p si.length rises) s ∧
      exec (.transactionWithoutType p ⟨byteBits 0x5A ++ si, rises⟩) s = exec (.frameRefused p si rises) s) ∧
    (∀ (a b : List Bool) (rises : Bool), (s.port p).link = .idle →
      ∃ t, exec (.transactionWithoutType p ⟨a, false⟩) s = .next t ∧
        exec (.transactionWithoutType p ⟨b, rises⟩) t = exec (.transactionWithoutType p ⟨a ++ b, rises⟩) s) ∧
    (∀ n : Nat, (s.port p).link = .abandoned →
      ∃ t, exec (.abandonedTransactionEnd p n) s = .next t ∧ (t.port p).link = .idle ∧
        (t.port p).so = (s.port p).so ++ List.replicate n false ∧ onlyLink t)

/-- At the select high that ends a REQUEST transaction the first failing test of TYPE, LENGTH, CHECK and BUSY
gives the refusal reason, and the frame is discarded whole; while the select stays low the bits are kept and
nothing else changes (R151, R154, R156). The second clause goes on with a transaction of which the bits `rx` are in:
all bits of the command, those of its type byte too, belong to the frame (deduced, log entry 7). -/
def Obligations.FramesAreRefusedByTheFirstFailingTest : Prop :=
  ∀ (s : State) (p : PortId) (si : List Bool), s.resetPin = false →
    let kept := fun (first : Byte) (bits out : List Bool) =>
      ∃ t, exec (.frameRefused p si false) s = .next t ∧ (t.port p).link = .request first bits ∧
        (t.port p).so = out ∧ (s.port p).sameButLink (t.port p) ∧ s.samePortsBut t p ∧ s.sameBehindPorts t
    let decided := fun (bits out : List Bool) =>
      let refused := fun (r : LinkReason) =>
        ∃ t, exec (.frameRefused p si true) s = .next t ∧ (t.port p).reason = r ∧
          (t.port p).slot = (s.port p).slot ∧ (t.port p).link = .idle ∧ (t.port p).so = out ∧
          (t.port p).session = (s.port p).session ∧ (t.port p).number = (s.port p).number ∧
          (t.port p).sessionEnd = (s.port p).sessionEnd ∧ (t.port p).posting = (s.port p).posting ∧
          (t.port p).prst = (s.port p).prst ∧ (s.port p).sameTables (t.port p) ∧ s.samePortsBut t p ∧
          s.sameBehindPorts t
      let whole := fun (tag code len : Byte) (body : List Byte) (chk : Byte) =>
        bits = bytesBits (tag :: code :: len :: (body ++ [chk])) ∧ len.toNat ≤ 120 ∧ body.length = len.toNat
      ((s.port p).prst = true → refused .type) ∧
      ((s.port p).prst = false → (¬∃ tag code len body chk, whole tag code len body chk) → refused .length) ∧
      ∀ tag code len body chk, (s.port p).prst = false → whole tag code len body chk →
        (chk ≠ crc8 (tag :: code :: len :: body) → refused .check) ∧
        (chk = crc8 (tag :: code :: len :: body) → (s.port p).slot ≠ .empty → refused .busy)
    ((s.port p).link = .idle →
      kept (s.port p).statusByte si (statusOut (s.port p) (8 + si.length)) ∧
      decided si (statusOut (s.port p) (8 + si.length))) ∧
    ∀ first rx, (s.port p).link = .request first rx →
      let bits := rx ++ byteBits 0x5A ++ si
      let out := (s.port p).so ++
        (List.range (8 + si.length)).map fun k => first.getMsbD ((rx.length + k) % 8)
      kept first bits out ∧ decided bits out

/-- The bits of a frame run the request they spell: a REQUEST transaction whose bits are the frame's bytes,
most significant bit first, does exactly what the command of the frame's request does, in one piece or in two
with nothing between them (R151, R153, R154, R157, R168). That FRAME_REFUSED with the bits of a good frame takes
it is deduced (log entry 10). -/
def Obligations.FrameBitsRunTheirRequest : Prop :=
  ∀ (s : State) (p : PortId) (r : Req) (tag : Byte) (pl : List Byte), pl.length ≤ 120 →
    let bits := bytesBits (Frame.bytes ⟨tag, reqCode r, pl⟩)
    exec (.frameRefused p bits true) s = exec (requestCommand r p tag pl) s ∧
    ∀ a b, a ++ b = bits → s.resetPin = false → (s.port p).link = .idle →
      ∃ t, exec (.frameRefused p a false) s = .next t ∧
        exec (.transactionWithoutType p ⟨b, true⟩) t = exec (requestCommand r p tag pl) s

/-- What the port engine and the first checks answer: UNKNOWN for a code that names no request, OFFLINE,
BAD_ARG for a payload length the request does not accept, then BAD_ARG for a field out of range; nothing
else changes, and SOn carries the status byte formed at select fall, repeated (R151, R157, R168, R169). HELLO and
POST are meant in each of their forms (log entries 1 and 11). -/
def Obligations.EngineAnswersFirst : Prop :=
  ∀ (s : State) (p : PortId) (tag : Byte) (pl : List Byte), s.canTake p → pl.length ≤ 120 →
    let answered := fun (c : Instr) (st : Status) =>
      ∃ t, exec c s = .next t ∧ s.onlyAnswered t p tag st [] ∧
        (t.port p).so = statusOut (s.port p) (8 * (5 + pl.length))
    (∀ code : Byte, requestCodeKnown code = false → answered (.unknownRequest p tag code pl) .unknown) ∧
    ∀ (r : Req) (c : Instr), carriesRequest c r p tag pl →
      ((s.port p).session = .offline → r ≠ .hello → answered c .offline) ∧
      ((s.port p).session = .online ∨ r = .hello → accepts r pl = false → answered c .badArg) ∧
      ((s.port p).session = .online → accepts r pl = true → ¬fieldsInRange r pl → answered c .badArg)

/-- A handle-addressed request whose fields are in range finds its handle unbound, or the caller without the
right or role it needs: NO_HANDLE, NO_RIGHT, NOT_ADMIN or NOT_VACANT, and nothing else changes, no copy step
included (R15, R32, R33, R66, R96). -/
def Obligations.HandleRequestsCheckTheirStanding : Prop :=
  ∀ (s : State) (p : PortId) (r : Req) (tag : Byte) (h : HandleId) (rest : List Byte), s.serves p →
    namesAHandle r = true → accepts r (handleByte h :: rest) = true → fieldsInRange r (handleByte h :: rest) →
    (s.viewEntry p h = none →
      ∃ t, exec (requestCommand r p tag (handleByte h :: rest)) s = .next t ∧
        s.onlyAnswered t p tag .noHandle []) ∧
    ∀ e st, s.viewEntry p h = some e → s.standing p e.tally r = some st →
      ∃ t, exec (requestCommand r p tag (handleByte h :: rest)) s = .next t ∧ s.onlyAnswered t p tag st []

/-! ## Sessions -/

/-- HELLO on an OFFLINE port opens a session in one action, with the next session number, and answers the
identification; one whose opening is left to HELLO_OPEN_SESSION holds the slot WORKING and the port stays
OFFLINE until then, and the opening after a session end that HELLO began does the same (R165; log entry 1). HELLO on an ONLINE port, and
LEAVE, begin a session end and hold the slot WORKING; the port stays ONLINE and nothing else changes yet
(R160 to R164, R170). -/
def Obligations.HelloAndLeaveOpenAndEndSessions : Prop :=
  ∀ (s : State) (p : PortId) (tag : Byte),
    let kept := fun t : State =>
      (t.port p).link = (s.port p).link ∧ (t.port p).prst = (s.port p).prst ∧
        (t.port p).posting = (s.port p).posting ∧ (s.port p).sameTables (t.port p) ∧
        s.samePortsBut t p ∧ s.sameBehindPorts t
    let opened := fun (t : State) =>
      (t.port p).session = .online ∧ (t.port p).number = (s.port p).number + 1 ∧
        (t.port p).slot = .ready ⟨tag, .ok, (s.port p).number + 1,
          [0x0A, 0x42, 0x01, (s.port p).number + 1, 4, 0x01, 0x00, 8, 64, 8, 16, 0x04, 0x00]⟩ ∧
        (t.port p).sessionEnd = (s.port p).sessionEnd ∧ kept t
    let begun := fun (c : Instr) (w : Work) =>
      ∃ t, exec c s = .next t ∧ (t.port p).slot = .working w ∧ (t.port p).sessionEnd = some .views ∧
        (t.port p).session = .online ∧ (t.port p).number = (s.port p).number ∧ (t.port p).reason = .none ∧ kept t
    ((s.port p).session = .offline → s.canTake p →
      (∃ t, exec (.hello p tag ⟨[], true⟩) s = .next t ∧ opened t ∧ (t.port p).reason = .none) ∧
      ∃ t, exec (.hello p tag ⟨[], false⟩) s = .next t ∧ (t.port p).slot = .working (.hello tag) ∧
        (t.port p).reason = .none ∧ (s.port p).sameButAnswer (t.port p) ∧ s.samePortsBut t p ∧
        s.sameBehindPorts t) ∧
    ((s.port p).session = .offline → s.resetPin = false → (s.port p).sessionEnd = none →
      (s.port p).slot = .working (.hello tag) →
        ∃ t, exec (.helloOpenSession p) s = .next t ∧ opened t ∧ (t.port p).reason = (s.port p).reason) ∧
    (s.serves p → (∀ opens, begun (.hello p tag ⟨[], opens⟩) (.hello tag)) ∧ begun (.leave p tag []) (.leave tag))

/-- Step 1 of a session end: every view entry of the port becomes unbound and each tally's bind count falls
by the entries that named it; rights, staged contributions and the other ports stay (R37, R164). -/
def Obligations.SessionEndUnbindsViews : Prop :=
  ∀ (s : State) (p : PortId), s.resetPin = false → (s.port p).posting = none →
    (s.port p).sessionEnd = some .views →
    ∃ t, exec (.sessionEndViews p) s = .next t ∧ (∀ h, t.viewEntry p h = none) ∧
      (∀ u, t.tally u = { s.tally u with bindCount := (s.tally u).bindCount - s.entriesNaming p u }) ∧
      (t.port p).sessionEnd = some .readers ∧ (t.port p).session = (s.port p).session ∧
      (t.port p).number = (s.port p).number ∧ (t.port p).slot = (s.port p).slot ∧
      (t.port p).reason = (s.port p).reason ∧ (t.port p).link = (s.port p).link ∧
      (t.port p).prst = (s.port p).prst ∧ (t.port p).posting = none ∧
      (t.port p).fifo = (s.port p).fifo ∧ (t.port p).events = (s.port p).events ∧
      s.samePortsBut t p ∧ s.sameGroups t ∧ s.sameStore t ∧ s.sameRest t

/-- Step 2: the port leaves the reader set of every record in every ring; READY records left without readers
are removed and their cells freed, FILLING ones are marked discard pending, and no event is posted (R108,
R119, R164). -/
def Obligations.SessionEndLeavesReaderSets : Prop :=
  ∀ (s : State) (p : PortId), s.resetPin = false → (s.port p).posting = none →
    (s.port p).sessionEnd = some .readers →
    ∃ t, exec (.sessionEndReaders p) s = .next t ∧
      (∀ g, t.ring g = (s.ring g).filterMap fun r => r.afterLeaving p) ∧
      t.freeCells = s.freeCells + ((List.finRange 8).map fun g => cellsFreedBy (s.ring g) p fun _ => true).sum ∧
      (t.port p).sessionEnd = some .tallyAdmin ∧ (t.port p).session = (s.port p).session ∧
      (t.port p).number = (s.port p).number ∧ (t.port p).reason = (s.port p).reason ∧
      (t.port p).link = (s.port p).link ∧ (t.port p).prst = (s.port p).prst ∧ (t.port p).posting = none ∧
      (t.port p).slot = (s.port p).slot ∧ (s.port p).sameTables (t.port p) ∧
      s.samePortsBut t p ∧ s.sameTallies t ∧ s.sameGroups t ∧ s.sameRest t

/-- Steps 3 and 4: every tally, then every group, that the port administers gets a vacant administrator and
nothing else of it changes; ADMIN_VACANT goes, in some order of the vacated ones, to the other ONLINE ports
bound to the tally, or to a defined tally of the group (R23, R100, R164). -/
def Obligations.SessionEndVacatesRoles : Prop :=
  ∀ (s : State) (p : PortId), s.resetPin = false → (s.port p).posting = none →
    ((s.port p).sessionEnd = some .tallyAdmin →
      ∃ (t : State) (order : List TallyId), exec (.sessionEndTallyAdmin p) s = .next t ∧ order.Nodup ∧
        (∀ u, u ∈ order ↔ (s.tally u).admin = some p) ∧
        (∀ u, t.tally u = if (s.tally u).admin = some p then { s.tally u with admin := none } else s.tally u) ∧
        s.eventsAre t (fun q => if q = p then [] else
          (order.filter fun u => s.bound q u).map fun u => (.adminVacant, .tally u, .port p)) ∧
        (t.port p).sessionEnd = some .groupAdmin ∧ (t.port p).session = (s.port p).session ∧
        (t.port p).number = (s.port p).number ∧ (t.port p).reason = (s.port p).reason ∧
        (t.port p).slot = (s.port p).slot ∧ (t.port p).link = (s.port p).link ∧
        (t.port p).prst = (s.port p).prst ∧ (t.port p).posting = none ∧ (t.port p).view = (s.port p).view ∧
        (t.port p).fifo = (s.port p).fifo ∧
        (∀ q, q ≠ p → (s.port q).sameButEvents (t.port q)) ∧ s.sameGroups t ∧ s.sameStore t ∧ s.sameRest t) ∧
    ((s.port p).sessionEnd = some .groupAdmin →
      ∃ (t : State) (order : List GroupId), exec (.sessionEndGroupAdmin p) s = .next t ∧ order.Nodup ∧
        (∀ g, g ∈ order ↔ (s.group g).admin = some p) ∧
        (∀ g, t.group g = if (s.group g).admin = some p then { s.group g with admin := none } else s.group g) ∧
        s.eventsAre t (fun q => if q = p then [] else
          (order.filter fun g => (s.membersOf g).any fun u => s.bound q u).map
            fun g => (.adminVacant, .group g, .port p)) ∧
        (t.port p).sessionEnd = some .events ∧ (t.port p).session = (s.port p).session ∧
        (t.port p).number = (s.port p).number ∧ (t.port p).reason = (s.port p).reason ∧
        (t.port p).slot = (s.port p).slot ∧ (t.port p).link = (s.port p).link ∧
        (t.port p).prst = (s.port p).prst ∧ (t.port p).posting = none ∧ (t.port p).view = (s.port p).view ∧
        (t.port p).fifo = (s.port p).fifo ∧
        (∀ q, q ≠ p → (s.port q).sameButEvents (t.port q)) ∧ s.sameTallies t ∧ s.sameStore t ∧ s.sameRest t)

/-- Step 5: the event block is emptied, ALERTn# is released and the session is OFFLINE, its number kept.
LEAVE's response becomes READY, a port reset's slot EMPTY, and a HELLO goes on WORKING (R147, R161 to R165). -/
def Obligations.SessionEndEmptiesTheEventBlock : Prop :=
  ∀ (s : State) (p : PortId), s.resetPin = false → (s.port p).posting = none →
    (s.port p).sessionEnd = some .events →
    ∃ t, exec (.sessionEndEvents p) s = .next t ∧
      (t.port p).events = ⟨[], none, ⟨false, false, false⟩, []⟩ ∧ (t.port p).alert = false ∧
      (t.port p).session = .offline ∧ (t.port p).sessionEnd = none ∧ (t.port p).number = (s.port p).number ∧
      (∀ tag, (s.port p).slot = .working (.leave tag) →
        (t.port p).slot = .ready ⟨tag, .ok, (s.port p).number, []⟩) ∧
      (∀ tag, (s.port p).slot = .working (.hello tag) → (t.port p).slot = .working (.hello tag)) ∧
      ((s.port p).slot = .working .portReset → (t.port p).slot = .empty) ∧
      (t.port p).view = (s.port p).view ∧ (t.port p).fifo = (s.port p).fifo ∧
      (t.port p).reason = (s.port p).reason ∧ (t.port p).link = (s.port p).link ∧
      (t.port p).prst = (s.port p).prst ∧ (t.port p).posting = none ∧
      s.samePortsBut t p ∧ s.sameBehindPorts t

/-! ## Events -/

/-- A posting to an OFFLINE port is discarded; to an ONLINE one it merges into the entry of the same kind and
subject, else joins the queue as its newest entry while fewer than 15 stand there, else counts in the
overflow marker. Mask and in-service stack play no part (R136, R137, R138, R139). -/
def Obligations.PostingMergesAppendsOrMarks : Prop :=
  ∀ (s : State) (p : PortId) (k : EventKind) (u : Subject) (d : Detail),
    let b := (s.port p).events
    let t := s.post p k u d
    let same := fun e : Event => e.kind = k ∧ e.subject = u
    ((s.port p).session = .offline → t = s) ∧
    ((s.port p).session = .online →
      (∀ before e after, b.queue = before ++ e :: after → same e → (∀ f ∈ before ++ after, ¬same f) →
        e.merged ≤ 255 → (t.port p).events = { b with
          queue := before ++ { e with merged := if e.merged < 255 then e.merged + 1 else 255, detail := d } :: after }) ∧
      ((∀ f ∈ b.queue, ¬same f) → b.queue.length < 15 →
        (t.port p).events = { b with queue := b.queue ++ [⟨k, u, d, 1⟩] }) ∧
      ((∀ f ∈ b.queue, ¬same f) → 15 ≤ b.queue.length →
        (b.marker = none → (t.port p).events = { b with marker := some 1 }) ∧
        (∀ n, b.marker = some n → n ≤ 255 →
          (t.port p).events = { b with marker := some (if n < 255 then n + 1 else 255) }))) ∧
    (s.port p).sameButEvents (t.port p) ∧ s.samePortsBut t p ∧ s.sameBehindPorts t

/-- SET_MASK replaces the caller's mask; ACK_EVENT removes the top of its in-service stack, or answers
NOTHING_IN_SERVICE. ALERTn# takes the level the new block gives (R141, R145, R146, R170). -/
def Obligations.MaskAndAcknowledge : Prop :=
  ∀ (s : State) (p : PortId) (tag : Byte), s.serves p →
    let b := (s.port p).events
    let changed := fun (t : State) (b' : EventBlock) =>
      (t.port p).events = b' ∧ ((t.port p).alert = true ↔ b'.holdsDeliverable) ∧ (s.port p).sameEngine (t.port p) ∧
        (t.port p).view = (s.port p).view ∧ (t.port p).fifo = (s.port p).fifo ∧
        s.samePortsBut t p ∧ s.sameBehindPorts t
    (∀ m : Mask, ∃ t, exec (.setMask p tag [m.code]) s = .next t ∧ changed t { b with mask := m } ∧
      s.answeredTo t p tag .ok
        [b.mask.code, m.code, byteOf b.queue.length, boolByte b.marker.isSome, byteOf b.stack.length]) ∧
    (b.stack = [] →
      ∃ t, exec (.ackEvent p tag []) s = .next t ∧ s.onlyAnswered t p tag .nothingInService []) ∧
    (∀ e rest, b.stack = e :: rest →
      ∃ t, exec (.ackEvent p tag []) s = .next t ∧ changed t { b with stack := rest } ∧
        s.answeredTo t p tag .ok ([e.kind.code, e.kind.cls.code] ++ e.subject.bytes ++ [byteOf rest.length]))

/-- TAKE_EVENT moves the most urgent deliverable event onto the in-service stack: of the highest deliverable
class, within FAULT the marker first, else the oldest entry of the class; with nothing deliverable it answers
NONE (R142, R143, R146, R170). -/
def Obligations.TakeEventSelects : Prop :=
  ∀ (s : State) (p : PortId) (tag : Byte), s.serves p →
    let b := (s.port p).events
    let taken := fun (e : Event) (q : List Event) (m : Option Nat) =>
      ∃ t, exec (.takeEvent p tag []) s = .next t ∧ (t.port p).events = ⟨q, m, b.mask, e :: b.stack⟩ ∧
        ((t.port p).alert = true ↔ (t.port p).events.holdsDeliverable) ∧
        s.answeredTo t p tag .ok ([e.kind.code, e.kind.cls.code] ++ e.subject.bytes ++ beBytes 4 e.detail.code ++
          [byteOf e.merged, byteOf q.length, boolByte m.isSome, byteOf (b.stack.length + 1)]) ∧
        (s.port p).sameEngine (t.port p) ∧ (t.port p).view = (s.port p).view ∧
        (t.port p).fifo = (s.port p).fifo ∧ s.samePortsBut t p ∧ s.sameBehindPorts t
    (¬b.holdsDeliverable →
      ∃ t, exec (.takeEvent p tag []) s = .next t ∧
        s.onlyAnswered t p tag .none [byteOf b.queue.length, boolByte b.marker.isSome, byteOf b.stack.length]) ∧
    (∀ n, b.marker = some n → b.delivers .fault →
      taken ⟨.queueOverflow, .none, .none, n⟩ b.queue none) ∧
    (∀ before e after, b.queue = before ++ e :: after → b.delivers e.kind.cls →
      (b.marker = none ∨ ¬b.delivers .fault) →
      (∀ f ∈ b.queue, b.delivers f.kind.cls → f.kind.cls.rank ≤ e.kind.cls.rank) →
      (∀ f ∈ before, f.kind.cls ≠ e.kind.cls) → taken e (before ++ after) b.marker)

/-! ## Tally administration -/

/-- DEFINE makes the lowest-numbered FREE tally LIVE as requested, owned by the caller, with the group's
interval number as its tag; with no FREE tally it answers NO_SPACE (R16). -/
def Obligations.DefineTakesTheLowestFreeTally : Prop :=
  ∀ (s : State) (p : PortId) (tag : Byte) (k : Kind) (g : GroupId) (pol : OverflowPolicy) (reset : Bool),
    s.serves p →
    let c := Instr.define p tag [k.code, groupByte g, pol.code, boolByte reset]
    ((∀ u, (s.tally u).state ≠ .free) → ∃ t, exec c s = .next t ∧ s.onlyAnswered t p tag .noSpace []) ∧
    ∀ u, (s.tally u).state = .free → (∀ v, v < u → (s.tally v).state ≠ .free) →
      ∃ t, exec c s = .next t ∧
        s.answeredTo t p tag .ok (byteOf u.val :: beBytes 4 (s.group g).interval.toNat) ∧
        t.tally u = { Tally.cleared with
          state := .live, kind := k, group := g, policy := pol, resetOnClose := reset
          value := if k = .peak then none else some 0
          tag := (s.group g).interval, admin := some p
          rights := (Vector.replicate 4 ⟨false, false, false, false⟩).set p ⟨true, true, true, true⟩ } ∧
        s.onlyTally t p u

/-- RETIRE by the administrator is answered BUSY while the group is CLOSING, IN_USE while another handle or a
staged contribution names the tally, and else removes the caller's entry and clears the record (R17, R24). -/
def Obligations.RetireFreesTheTally : Prop :=
  ∀ (s : State) (p : PortId) (tag : Byte) (h : HandleId) (e : ViewEntry), s.serves p →
    s.viewEntry p h = some e → (s.tally e.tally).admin = some p →
    let c := Instr.retire p tag [handleByte h]
    let x := s.tally e.tally
    ((s.group x.group).state = .closing →
      ∃ t, exec c s = .next t ∧ s.onlyAnswered t p tag .busy []) ∧
    ((s.group x.group).state = .opened → 1 < x.bindCount ∨ 0 < x.stagedCount →
      ∃ t, exec c s = .next t ∧ s.onlyAnswered t p tag .inUse []) ∧
    ((s.group x.group).state = .opened → x.bindCount ≤ 1 → x.stagedCount = 0 →
      ∃ t, exec c s = .next t ∧ s.answeredTo t p tag .ok [byteOf e.tally.val] ∧
        t.tally e.tally = Tally.cleared ∧ t.viewEntry p h = none ∧
        (∀ h', h' ≠ h → t.viewEntry p h' = s.viewEntry p h') ∧ (s.port p).sameEngine (t.port p) ∧
        (t.port p).fifo = (s.port p).fifo ∧ (t.port p).events = (s.port p).events ∧
        s.samePortsBut t p ∧ s.sameTalliesBut t e.tally ∧ s.sameGroups t ∧ s.sameStore t ∧ s.sameRest t)

/-- GRANT by the administrator replaces one port's rights on the tally and answers the subset before and
after; CLAIM_TALLY makes the caller the administrator of a tally whose role is vacant. Neither performs a copy
step (R5, R19, R22). -/
def Obligations.GrantAndClaimTally : Prop :=
  ∀ (s : State) (p : PortId) (tag : Byte) (h : HandleId) (e : ViewEntry), s.serves p →
    s.viewEntry p h = some e →
    let x := s.tally e.tally
    (∀ (q : PortId) (r : Rights), x.admin = some p →
      ∃ t, exec (.grant p tag [handleByte h, byteOf q.val, r.code]) s = .next t ∧
        s.answeredTo t p tag .ok [(s.rightsOf q e.tally).code, r.code] ∧
        t.tally e.tally = { x with rights := x.rights.set q r } ∧ s.onlyTally t p e.tally) ∧
    (x.admin = none →
      ∃ t, exec (.claimTally p tag [handleByte h]) s = .next t ∧
        s.answeredTo t p tag .ok [byteOf e.tally.val] ∧
        t.tally e.tally = { x with admin := some p } ∧ s.onlyTally t p e.tally)

/-- FREEZE and RESUME by the administrator, on a tally that is not owed, set its state and change nothing
else of it, whatever the state was (R13, R20, R21). -/
def Obligations.FreezeAndResumeSetTheState : Prop :=
  ∀ (s : State) (p : PortId) (tag : Byte) (h : HandleId) (e : ViewEntry), s.serves p →
    s.viewEntry p h = some e → (s.tally e.tally).admin = some p → s.owed e.tally = false →
    (∃ t, exec (.freeze p tag [handleByte h]) s = .next t ∧ s.answeredTo t p tag .ok [2] ∧
      t.tally e.tally = { s.tally e.tally with state := .frozen } ∧ s.onlyTally t p e.tally) ∧
    (∃ t, exec (.resume p tag [handleByte h]) s = .next t ∧ s.answeredTo t p tag .ok [1] ∧
      t.tally e.tally = { s.tally e.tally with state := .live } ∧ s.onlyTally t p e.tally)

/-- SET_LIMIT by the administrator: BAD_KIND on a PEAK tally; SET makes the named limit present, ARMED, then
evaluated silently against the present value, or answers BAD_ARG for a level outside the kind's range; REMOVE
makes it absent; REPORT changes nothing. The other limit stands, and no event is posted (R129, R130). -/
def Obligations.SetLimitSetsRemovesReports : Prop :=
  ∀ (s : State) (p : PortId) (tag : Byte) (h : HandleId) (e : ViewEntry) (d : Side) (minus : Bool)
    (m hyst : Nat) (v : Int), s.serves p → s.viewEntry p h = some e → (s.tally e.tally).admin = some p →
    m < 2 ^ 64 → hyst < 2 ^ 32 →
    let x := s.tally e.tally
    let level := signedValue minus m
    let c := fun op : Byte =>
      Instr.setLimit p tag ([handleByte h, d.code, op] ++ signedBytes minus m ++ beBytes 4 hyst)
    let answered := fun (op : Byte) (up lo : Option Limit) =>
      ∃ t, exec (c op) s = .next t ∧
        s.answeredTo t p tag .ok (byteOf e.tally.val :: limitBytes up ++ limitBytes lo) ∧
        t.tally e.tally = { x with upper := up, lower := lo } ∧ s.onlyTally t p e.tally
    (x.kind = .peak → ∀ op : Byte, op.toNat < 3 →
      ∃ t, exec (c op) s = .next t ∧ s.onlyAnswered t p tag .badKind []) ∧
    (x.kind ≠ .peak → x.kind.holds level = false →
      ∃ t, exec (c 0) s = .next t ∧ s.onlyAnswered t p tag .badArg []) ∧
    (x.kind ≠ .peak → x.kind.holds level = true → x.value = some v →
      (d = .upper → answered 0 (some ⟨level, hyst, if level ≤ v then .tripped else .armed⟩) x.lower) ∧
      (d = .lower → answered 0 x.upper (some ⟨level, hyst, if v ≤ level then .tripped else .armed⟩))) ∧
    (x.kind ≠ .peak → d = .upper → answered 1 none x.lower) ∧
    (x.kind ≠ .peak → d = .lower → answered 1 x.upper none) ∧
    (x.kind ≠ .peak → answered 2 x.upper x.lower)

/-- An evaluation with events: each present limit moves at most once, by its table, the upper before the
lower, and each move's event goes to the ports that hold a binding and WATCH (R123, R124, R125, R128). -/
def Obligations.EvaluationFollowsTheLimitTables : Prop :=
  ∀ (s : State) (u : TallyId) (v : Int), (s.tally u).value = some v →
    let x := s.tally u
    let t := s.evaluateWithEvents u
    let up := fun l : Limit =>
      (l.trip = .armed ∧ l.level ≤ v ∧ (t.tally u).upper = some { l with trip := .tripped }) ∨
      (l.trip = .armed ∧ v < l.level ∧ (t.tally u).upper = some l) ∨
      (l.trip = .tripped ∧ v ≤ l.level - l.hyst ∧ (t.tally u).upper = some { l with trip := .armed }) ∨
      (l.trip = .tripped ∧ l.level - l.hyst < v ∧ (t.tally u).upper = some l)
    let lo := fun l : Limit =>
      (l.trip = .armed ∧ v ≤ l.level ∧ (t.tally u).lower = some { l with trip := .tripped }) ∨
      (l.trip = .armed ∧ l.level < v ∧ (t.tally u).lower = some l) ∨
      (l.trip = .tripped ∧ l.level + l.hyst ≤ v ∧ (t.tally u).lower = some { l with trip := .armed }) ∨
      (l.trip = .tripped ∧ v < l.level + l.hyst ∧ (t.tally u).lower = some l)
    let moved := fun (d : Side) (old new : Option Limit) => match old, new with
      | some a, some b =>
        if a.trip = .armed ∧ b.trip = .tripped then [(EventKind.limitReached, d)]
        else if a.trip = .tripped ∧ b.trip = .armed then [(EventKind.limitCleared, d)] else []
      | _, _ => []
    (∀ l, x.upper = some l → up l) ∧ (x.upper = none → (t.tally u).upper = none) ∧
    (∀ l, x.lower = some l → lo l) ∧ (x.lower = none → (t.tally u).lower = none) ∧
    t.tally u = { x with upper := (t.tally u).upper, lower := (t.tally u).lower } ∧
    s.eventsAre t (s.limitEvents u
      (moved .upper x.upper (t.tally u).upper ++ moved .lower x.lower (t.tally u).lower)) ∧
    (∀ q, (s.port q).sameButEvents (t.port q)) ∧ s.sameTalliesBut t u ∧ s.sameGroups t ∧ s.sameStore t ∧
    s.sameRest t

/-! ## Views -/

/-- BIND makes its checks in order and then binds the handle with the weight and raises the tally's bind
count; UNBIND removes the entry and lowers it (R27, R28, R30). -/
def Obligations.BindAndUnbind : Prop :=
  ∀ (s : State) (p : PortId) (tag : Byte) (h : HandleId), s.serves p →
    let viewIs := fun (t : State) (e : Option ViewEntry) =>
      t.viewEntry p h = e ∧ (∀ h', h' ≠ h → t.viewEntry p h' = s.viewEntry p h') ∧
        (s.port p).sameEngine (t.port p) ∧ (t.port p).fifo = (s.port p).fifo ∧
        (t.port p).events = (s.port p).events ∧ s.samePortsBut t p ∧ s.sameGroups t ∧ s.sameStore t ∧ s.sameRest t
    (∀ (u : TallyId) (w : Nat), 1 ≤ w → w < 65536 →
      let c := Instr.bind p tag ([handleByte h, byteOf u.val] ++ beBytes 2 w)
      let x := s.tally u
      let refused := fun (st : Status) (payload : List Byte) =>
        ∃ t, exec c s = .next t ∧ s.onlyAnswered t p tag st payload
      (∀ e, s.viewEntry p h = some e → refused .already [handleByte h, byteOf e.tally.val]) ∧
      (s.viewEntry p h = none → x.state = .free → refused .noTally []) ∧
      (s.viewEntry p h = none → x.state ≠ .free → s.rightsOf p u = ⟨false, false, false, false⟩ →
        refused .noRight []) ∧
      (s.viewEntry p h = none → x.state ≠ .free → s.rightsOf p u ≠ ⟨false, false, false, false⟩ →
        (∀ h' e, s.viewEntry p h' = some e → e.tally = u →
          (∀ h'' e', s.viewEntry p h'' = some e' → e'.tally = u → h'' = h') →
            refused .already [handleByte h', byteOf u.val]) ∧
        ((∀ h' e, s.viewEntry p h' = some e → e.tally ≠ u) →
          ∃ t, exec c s = .next t ∧ s.answeredTo t p tag .ok
              [handleByte h, byteOf u.val, x.kind.code, byteOf x.group.val, (s.rightsOf p u).code,
                byteOf (x.bindCount + 1)] ∧
            viewIs t (some ⟨u, w⟩) ∧ t.tally u = { x with bindCount := x.bindCount + 1 } ∧
            s.sameTalliesBut t u))) ∧
    (∀ e, s.viewEntry p h = some e →
      ∃ t, exec (.unbind p tag [handleByte h]) s = .next t ∧
        s.answeredTo t p tag .ok [byteOf e.tally.val, byteOf ((s.tally e.tally).bindCount - 1)] ∧ viewIs t none ∧
        t.tally e.tally = { s.tally e.tally with bindCount := (s.tally e.tally).bindCount - 1 } ∧
        s.sameTalliesBut t e.tally)

/-! ## Contributions -/

/-- POST stages, in payload order and with the handle's weight, the entries that pass their checks while the
FIFO has room, raises the staged counts with them, and answers OK or PARTIAL with the accepted count, the
entry statuses and the free places (R42 to R45, R47, R48, R169). -/
def Obligations.PostStagesItsEntries : Prop :=
  ∀ (s : State) (p : PortId) (tag : Byte) (es : List (Byte × BitVec 32)), s.serves p →
    1 ≤ es.length → es.length ≤ 8 →
    let sts := postStatuses (8 - (s.port p).fifo.length) (es.map fun e => s.entryStatus p e.1)
    let staged := s.stagedBy p es sts
    ∃ t, exec (.post p tag (postPayload es) .whole) s = .next t ∧
      s.answeredTo t p tag (if sts.all (· == .ok) then .ok else .partly)
        (byteOf (sts.count .ok) :: sts.map Status.code ++ [byteOf (8 - (t.port p).fifo.length)]) ∧
      (t.port p).fifo = (s.port p).fifo ++ staged ∧
      (∀ u, t.tally u = { s.tally u with
        stagedCount := (s.tally u).stagedCount + staged.countP fun e => e.tally == u }) ∧
      (s.port p).sameEngine (t.port p) ∧ (t.port p).view = (s.port p).view ∧
      (t.port p).events = (s.port p).events ∧ s.samePortsBut t p ∧ s.sameGroups t ∧ s.sameStore t ∧
      s.sameRest t

/-- POST in parts, so that other actions can fall between its entries: the frame is taken and the slot stays
WORKING; then one entry after the other is examined and staged against the state as it then stands, FULL
ending the examination, and the answer comes with the last (R43 to R46). After a port reset no response is
formed (R165). That each entry is an action of its own, and the field that holds the waiting ones, are deduced
(log entry 11); with no POST in progress the command does nothing (the model's choice, log entry 3). -/
def Obligations.PostExaminesEntryByEntry : Prop :=
  ∀ (s : State) (p : PortId),
    (∀ (tag : Byte) (es : List (Byte × BitVec 32)), s.serves p → 1 ≤ es.length → es.length ≤ 8 →
      ∃ t, exec (.post p tag (postPayload es) .taken) s = .next t ∧ (t.port p).posting = some ⟨tag, es, []⟩ ∧
        (t.port p).slot = .working (.request tag) ∧ (t.port p).reason = .none ∧
        (t.port p).session = (s.port p).session ∧ (t.port p).number = (s.port p).number ∧
        (t.port p).sessionEnd = (s.port p).sessionEnd ∧ (t.port p).link = (s.port p).link ∧
        (t.port p).prst = (s.port p).prst ∧ (s.port p).sameTables (t.port p) ∧ s.samePortsBut t p ∧
        s.sameBehindPorts t) ∧
    (∀ (tag : Byte) (pl : List Byte), s.resetPin = false → (s.port p).posting = none →
      exec (.post p tag pl .entry) s = .next s) ∧
    ∀ (w : PostWork) (h : Byte) (q : BitVec 32) (rest : List (Byte × BitVec 32)) (tag : Byte) (pl : List Byte),
      s.resetPin = false → (s.port p).posting = some w → w.rest = (h, q) :: rest →
      let room := (s.port p).fifo.length < 8
      let st := if s.entryStatus p h = .ok ∧ ¬room then .full else s.entryStatus p h
      let sts := w.sts ++ st :: if st = .full then rest.map fun _ => .full else []
      let staged := if st = .ok then (s.contributionOf p h q).toList else []
      let ended := rest = [] ∨ st = .full
      ∃ t, exec (.post p tag pl .entry) s = .next t ∧ (t.port p).fifo = (s.port p).fifo ++ staged ∧
        (∀ u, t.tally u = { s.tally u with
          stagedCount := (s.tally u).stagedCount + staged.countP fun e => e.tally == u }) ∧
        (¬ended → (t.port p).posting = some ⟨w.tag, rest, sts⟩ ∧ (t.port p).slot = (s.port p).slot) ∧
        (ended → (t.port p).posting = none ∧
          ((s.port p).slot = .working (.request w.tag) → (t.port p).slot = .ready
            ⟨w.tag, if sts.all (· == .ok) then .ok else .partly, (s.port p).number,
              byteOf (sts.count .ok) :: sts.map Status.code ++ [byteOf (8 - (t.port p).fifo.length)]⟩) ∧
          ((s.port p).slot = .working .portReset → (t.port p).slot = .working .portReset)) ∧
        (t.port p).session = (s.port p).session ∧ (t.port p).number = (s.port p).number ∧
        (t.port p).sessionEnd = (s.port p).sessionEnd ∧ (t.port p).link = (s.port p).link ∧
        (t.port p).prst = (s.port p).prst ∧ (t.port p).reason = (s.port p).reason ∧
        (t.port p).view = (s.port p).view ∧ (t.port p).events = (s.port p).events ∧ s.samePortsBut t p ∧
        s.sameGroups t ∧ s.sameStore t ∧ s.sameRest t

/-- DRAIN is answered OK at once on an empty FIFO; else the slot goes on WORKING and nothing else changes
(R64). -/
def Obligations.DrainWaitsForTheFifo : Prop :=
  ∀ (s : State) (p : PortId) (tag : Byte), s.serves p →
    ((s.port p).fifo = [] → ∃ t, exec (.drain p tag []) s = .next t ∧ s.onlyAnswered t p tag .ok []) ∧
    ((s.port p).fifo ≠ [] →
      ∃ t, exec (.drain p tag []) s = .next t ∧ (t.port p).slot = .working (.drain tag) ∧
        (t.port p).reason = .none ∧ (s.port p).sameButAnswer (t.port p) ∧ s.samePortsBut t p ∧
        s.sameBehindPorts t)

/-- APPLY serves the first non-empty FIFO from the pointer on: its head leaves, the tally's staged count
falls, the pointer moves past the port, and a DRAIN waiting on the emptied FIFO becomes READY; nothing else
of any port but its event block changes, and of the tallies only the entry's own. With every FIFO empty it
grants nothing (R52, R53, R54, R64). -/
def Obligations.ApplyServesInTurn : Prop :=
  ∀ s : State, s.resetPin = false →
    ((∀ q, (s.port q).fifo = []) → exec .apply s = .next s) ∧
    ∀ q e rest, s.turnOf q e rest →
      ∃ t, exec .apply s = .next t ∧ t.pointer = q + 1 ∧ (t.port q).fifo = rest ∧
        (t.tally e.tally).stagedCount = (s.tally e.tally).stagedCount - 1 ∧
        (∀ tag, rest = [] → (s.port q).slot = .working (.drain tag) →
          (t.port q).slot = .ready ⟨tag, .ok, (s.port q).number, []⟩) ∧
        ((rest ≠ [] ∨ ∀ tag, (s.port q).slot ≠ .working (.drain tag)) → (t.port q).slot = (s.port q).slot) ∧
        (∀ r, (s.port r).sameEngine (t.port r) ∧ (t.port r).reason = (s.port r).reason ∧
          (t.port r).so = (s.port r).so ∧ (t.port r).view = (s.port r).view) ∧
        (∀ r, r ≠ q → (t.port r).fifo = (s.port r).fifo ∧ (t.port r).slot = (s.port r).slot) ∧
        s.sameTalliesBut t e.tally ∧ s.sameGroups t ∧ t.freeCells = s.freeCells ∧
        (s.owed e.tally = false → ∀ g, t.ring g = s.ring g) ∧
        t.resetPin = s.resetPin ∧ t.pending = s.pending

/-- A contribution whose tally is FROZEN at apply is dropped, whatever its kind and product: the dropped count
and the token move, CONTRIB_REFUSED (FROZEN) goes to the posting port, and nothing is evaluated (R56, R63). -/
def Obligations.ApplyDropsAtFrozen : Prop :=
  ∀ (s : State) (q : PortId) (e : Staged) (rest : List Staged), s.resetPin = false → s.turnOf q e rest →
    s.owed e.tally = false → (s.tally e.tally).state = .frozen →
    let x := s.tally e.tally
    ∃ t, exec .apply s = .next t ∧
      t.tally e.tally = { x with
        dropped := if x.dropped < 255 then x.dropped + 1 else x.dropped
        token := x.token + 1, stagedCount := x.stagedCount - 1 } ∧
      s.eventsAre t fun r =>
        if r = e.port then [(.contribRefused, .tally e.tally, .refused .frozen)] else []

/-- SUM_U at apply: a negative product is rejected and reported; else the value becomes (value + p) modulo
2^64, a wrap counts and is a flag event, the contribution is counted with its poster, and the limits are
evaluated with events (R55, R57, R62, R63, R126). The hypotheses are the ranges the invariant FieldsSound
keeps. -/
def Obligations.ApplySumU : Prop :=
  ∀ (s : State) (q : PortId) (e : Staged) (rest : List Staged) (v : Int), s.resetPin = false →
    s.turnOf q e rest → s.owed e.tally = false → (s.tally e.tally).state = .live →
    (s.tally e.tally).kind = .sumU → (s.tally e.tally).value = some v → 0 ≤ v → v < 2 ^ 64 → e.Sound q →
    let x := s.tally e.tally
    let p := e.quantity * (e.weight : Int)
    let y := { x with
      value := some ((v + p) % 2 ^ 64)
      rollover := if 2 ^ 64 ≤ v + p ∧ x.rollover < 255 then x.rollover + 1 else x.rollover
      token := if 2 ^ 64 ≤ v + p then x.token + 1 else x.token
      count := if x.count < 2 ^ 32 - 1 then x.count + 1 else x.count
      last := some e.port }
    (p < 0 → ∃ t, exec .apply s = .next t ∧
      t.tally e.tally = { x with
        rejected := if x.rejected < 255 then x.rejected + 1 else x.rejected
        token := x.token + 1, stagedCount := x.stagedCount - 1 } ∧
      s.eventsAre t fun r =>
        if r = e.port then [(.contribRefused, .tally e.tally, .refused .negative)] else []) ∧
    (0 ≤ p → ∃ t, exec .apply s = .next t ∧
      t.tally e.tally = { y.evaluate with stagedCount := x.stagedCount - 1 } ∧
      s.eventsAre t (s.limitEvents e.tally y.limitMoves))

/-- SUM_S at apply: a sum in range is stored; out of range it is clamped under SATURATE, with the overflow flag
set, and under FREEZE refused with the tally frozen, CONTRIB_REFUSED (OVERFLOW) going to the poster and then
TALLY_FROZEN to the administrator and the watchers, once to each (R55, R58, R59, R60, R62, R63, R126). -/
def Obligations.ApplySumS : Prop :=
  ∀ (s : State) (q : PortId) (e : Staged) (rest : List Staged) (v : Int), s.resetPin = false →
    s.turnOf q e rest → s.owed e.tally = false → (s.tally e.tally).state = .live →
    (s.tally e.tally).kind = .sumS → (s.tally e.tally).value = some v →
    let x := s.tally e.tally
    let sum := v + e.quantity * (e.weight : Int)
    let inRange := -2 ^ 63 ≤ sum ∧ sum ≤ 2 ^ 63 - 1
    let counted := fun y : Tally => { y with
      count := if x.count < 2 ^ 32 - 1 then x.count + 1 else x.count, last := some e.port }
    let stored := counted { x with value := some sum }
    let clamped := counted { x with
      value := some (if 2 ^ 63 - 1 < sum then 2 ^ 63 - 1 else -2 ^ 63), overflow := true, token := x.token + 1 }
    let applied := fun y : Tally => ∃ t, exec .apply s = .next t ∧
      t.tally e.tally = { y.evaluate with stagedCount := x.stagedCount - 1 } ∧
      s.eventsAre t (s.limitEvents e.tally y.limitMoves)
    (inRange → applied stored) ∧ (¬inRange → x.policy = .saturate → applied clamped) ∧
    (¬inRange → x.policy = .freeze → ∃ t, exec .apply s = .next t ∧
      t.tally e.tally = { x with
        state := .frozen, overflow := true, token := x.token + 1, stagedCount := x.stagedCount - 1 } ∧
      s.eventsAre t fun r =>
        (if r = e.port then [(.contribRefused, .tally e.tally, .refused .overflow)] else []) ++
        (if x.admin = some r ∨ (s.bound r e.tally = true ∧ (s.rightsOf r e.tally).watch = true)
          then [(.tallyFrozen, .tally e.tally, .none)] else []))

/-- PEAK at apply: the value becomes the product when absent, else the greater of the two; the contribution is
counted and no event is posted (R55, R61, R62). A PEAK tally carries no limits (R12): the hypotheses on them
are part of the invariant FieldsSound. -/
def Obligations.ApplyPeak : Prop :=
  ∀ (s : State) (q : PortId) (e : Staged) (rest : List Staged), s.resetPin = false →
    s.turnOf q e rest → s.owed e.tally = false → (s.tally e.tally).state = .live →
    (s.tally e.tally).kind = .peak → (s.tally e.tally).upper = none → (s.tally e.tally).lower = none →
    let x := s.tally e.tally
    let p := e.quantity * (e.weight : Int)
    ∃ t, exec .apply s = .next t ∧
      t.tally e.tally = { x with
        value := some (match x.value with | none => p | some v => if v < p then p else v)
        count := if x.count < 2 ^ 32 - 1 then x.count + 1 else x.count
        last := some e.port, stagedCount := x.stagedCount - 1 } ∧
      s.eventsAre t fun _ => []

/-! ## Direct access -/

/-- READ by a port with READ, on a tally that is not owed, answers the whole visible record in one action and
changes nothing (R70, R170). -/
def Obligations.ReadReportsTheRecord : Prop :=
  ∀ (s : State) (p : PortId) (tag : Byte) (h : HandleId) (e : ViewEntry), s.serves p →
    s.viewEntry p h = some e → (s.rightsOf p e.tally).read = true → s.owed e.tally = false →
    let x := s.tally e.tally
    ∃ t, exec (.read p tag [handleByte h]) s = .next t ∧
      s.onlyAnswered t p tag .ok ([byteOf e.tally.val, x.state.code, x.kind.code, byteOf x.group.val] ++
        valueBytes x.value ++ beBytes 4 x.count ++
        [match x.last with | none => 0xFF | some q => byteOf q.val,
          if x.overflow then 1 else 0, byteOf x.rollover, byteOf x.rejected, byteOf x.dropped, x.token] ++
        beBytes 4 x.tag.toNat ++ [byteOf x.bindCount, byteOf x.stagedCount])

/-- TAKE by a port with DRAW, on a tally that is not owed, answers the value and its interval tag and leaves 0,
or absent for PEAK; a SUM value other than 0 is followed by an evaluation with events, and a TAKE that finds
nothing to draw changes nothing (R71, R74). -/
def Obligations.TakeDrawsTheValue : Prop :=
  ∀ (s : State) (p : PortId) (tag : Byte) (h : HandleId) (e : ViewEntry), s.serves p →
    s.viewEntry p h = some e → (s.rightsOf p e.tally).draw = true → s.owed e.tally = false →
    let x := s.tally e.tally
    let c := Instr.take p tag [handleByte h]
    let answer := byteOf e.tally.val :: valueBytes x.value ++ beBytes 4 x.tag.toNat
    let y := { x with value := some 0 }
    (x.kind = .peak → ∃ t, exec c s = .next t ∧ s.answeredTo t p tag .ok answer ∧
      t.tally e.tally = { x with value := none } ∧ s.onlyTally t p e.tally) ∧
    (x.kind ≠ .peak → x.value = some 0 → ∃ t, exec c s = .next t ∧ s.onlyAnswered t p tag .ok answer) ∧
    (x.kind ≠ .peak → x.value ≠ some 0 → ∃ t, exec c s = .next t ∧ s.answeredTo t p tag .ok answer ∧
      t.tally e.tally = y.evaluate ∧ s.eventsAre t (s.limitEvents e.tally y.limitMoves) ∧
      s.onlyTallyAndEvents t p e.tally)

/-- EXCHANGE by a port with DRAW, on a tally that is not owed: BAD_KIND on PEAK, BAD_ARG for a new value out of
the kind's range, MISMATCH with the value as it stands, else the new value stored, a change followed by an
evaluation with events (R73, R74). -/
def Obligations.ExchangeComparesAndStores : Prop :=
  ∀ (s : State) (p : PortId) (tag : Byte) (h : HandleId) (e : ViewEntry) (m1 m2 : Bool) (n1 n2 : Nat),
    s.serves p → s.viewEntry p h = some e → (s.rightsOf p e.tally).draw = true → s.owed e.tally = false →
    n1 < 2 ^ 64 → n2 < 2 ^ 64 →
    let x := s.tally e.tally
    let expected := signedValue m1 n1
    let new := signedValue m2 n2
    let c := Instr.exchange p tag (handleByte h :: signedBytes m1 n1 ++ signedBytes m2 n2)
    let y := { x with value := some new }
    let only := fun (st : Status) (payload : List Byte) =>
      ∃ t, exec c s = .next t ∧ s.onlyAnswered t p tag st payload
    (x.kind = .peak → only .badKind []) ∧
    (x.kind ≠ .peak → x.kind.holds new = false → only .badArg []) ∧
    (x.kind ≠ .peak → x.kind.holds new = true → x.value ≠ some expected → only .mismatch (valueBytes x.value)) ∧
    (x.kind ≠ .peak → x.kind.holds new = true → x.value = some expected → new = expected →
      only .ok (valueBytes x.value ++ valueBytes (some new))) ∧
    (x.kind ≠ .peak → x.kind.holds new = true → x.value = some expected → new ≠ expected →
      ∃ t, exec c s = .next t ∧ s.answeredTo t p tag .ok (valueBytes x.value ++ valueBytes (some new)) ∧
        t.tally e.tally = y.evaluate ∧ s.eventsAre t (s.limitEvents e.tally y.limitMoves) ∧
        s.onlyTallyAndEvents t p e.tally)

/-- CLEAR_FLAGS by a port with READ, on a tally that is not owed: with the tally's token the flag and the three
counts clear and the token moves on, else STALE with the record as it stands (R76). -/
def Obligations.ClearFlagsNeedsTheToken : Prop :=
  ∀ (s : State) (p : PortId) (tag : Byte) (h : HandleId) (e : ViewEntry) (token : Byte), s.serves p →
    s.viewEntry p h = some e → (s.rightsOf p e.tally).read = true → s.owed e.tally = false →
    let x := s.tally e.tally
    let c := Instr.clearFlags p tag [handleByte h, token]
    (token = x.token → ∃ t, exec c s = .next t ∧ s.answeredTo t p tag .ok [x.token + 1] ∧
      t.tally e.tally =
        { x with overflow := false, rollover := 0, rejected := 0, dropped := 0, token := x.token + 1 } ∧
      s.onlyTally t p e.tally) ∧
    (token ≠ x.token → ∃ t, exec c s = .next t ∧ s.onlyAnswered t p tag .stale
      [x.token, if x.overflow then 1 else 0, byteOf x.rollover, byteOf x.rejected, byteOf x.dropped])

/-! ## The copy step -/

/-- The copy step: the member's cell takes value, count, overflow flag and frozen-at-close; the member starts
the group's present interval, its limits' trip states evaluated silently; nothing else of any record, ring or
port changes (R95, R107, R127). -/
def Obligations.CopyStepMovesTheClosingValues : Prop :=
  ∀ (s : State) (u : TallyId),
    let x := s.tally u
    let t := s.copyStep u
    let kept := if x.resetOnClose then some 0 else x.value
    let cell : SnapCell := ⟨x.value, x.count, x.overflow, x.state == .frozen⟩
    t.tally u = ({ x with
        value := if x.kind = .peak then none else kept
        count := 0, tag := (s.group x.group).interval } : Tally).evaluate ∧
    s.sameTalliesBut t u ∧ s.sameRingsBut t x.group ∧
    (t.ring x.group).length = (s.ring x.group).length ∧
    (∀ (i : Nat) (r : SnapRecord), (s.ring x.group)[i]? = some r →
      (r.state = .ready ∨ u ∉ r.members → (t.ring x.group)[i]? = some r) ∧
      (r.state = .filling → ∀ before after, r.members = before ++ u :: after → u ∉ before →
        (t.ring x.group)[i]? = some { r with cells := r.cells.set before.length (some cell) })) ∧
    (∀ q, t.port q = s.port q) ∧ s.sameGroups t ∧ t.freeCells = s.freeCells ∧ s.sameRest t

/-- READ, TAKE, EXCHANGE, CLEAR_FLAGS, FREEZE and RESUME that pass their handle and standing checks, and the
apply of a staged contribution, find an owed tally and do its copy step first: each does what it does on the
state the copy step leaves, where the tally is no longer owed (R5, R54, R67, R95, R96). -/
def Obligations.FirstTouchDoesTheCopyStep : Prop :=
  ∀ (s : State) (u : TallyId), s.owed u = true →
    (s.copyStep u).owed u = false ∧
    (∀ (p : PortId) (tag : Byte) (h : HandleId) (e : ViewEntry) (rest : List Byte) (r : Req),
      r ∈ [Req.read, .take, .exchange, .clearFlags, .freeze, .resume] → s.serves p →
      s.viewEntry p h = some e → e.tally = u → s.standing p u r = none →
      accepts r (handleByte h :: rest) = true → fieldsInRange r (handleByte h :: rest) →
        exec (requestCommand r p tag (handleByte h :: rest)) s =
          exec (requestCommand r p tag (handleByte h :: rest)) (s.copyStep u)) ∧
    (∀ q e rest, s.resetPin = false → s.turnOf q e rest → e.tally = u →
      exec .apply s = exec .apply (s.copyStep u))

/-! ## Groups and closes -/

/-- CLAIM_GROUP takes a vacant group's role, or is answered NOT_VACANT; SET_GROUP by the administrator sets
period and ring policy and reloads the countdown, in either state of the group, or is answered NOT_ADMIN
(R82, R83, R84). -/
def Obligations.ClaimAndSetGroup : Prop :=
  ∀ (s : State) (p : PortId) (tag : Byte) (g : GroupId), s.serves p →
    let x := s.group g
    (x.admin ≠ none →
      ∃ t, exec (.claimGroup p tag [byteOf g.val]) s = .next t ∧ s.onlyAnswered t p tag .notVacant []) ∧
    (x.admin = none →
      ∃ t, exec (.claimGroup p tag [byteOf g.val]) s = .next t ∧
        s.answeredTo t p tag .ok ([byteOf g.val, x.state.code] ++ beBytes 4 x.interval.toNat) ∧
        t.group g = { x with admin := some p } ∧ s.onlyGroup t p g) ∧
    ∀ (k : Nat) (pol : RingPolicy), k < 65536 →
      let c := Instr.setGroup p tag (byteOf g.val :: beBytes 2 k ++ [pol.code])
      (x.admin ≠ some p → ∃ t, exec c s = .next t ∧ s.onlyAnswered t p tag .notAdmin []) ∧
      (x.admin = some p → ∃ t, exec c s = .next t ∧
        s.answeredTo t p tag .ok (beBytes 2 k ++ beBytes 2 k ++ [pol.code]) ∧
        t.group g = { x with period := k, countdown := k, policy := pol } ∧ s.onlyGroup t p g)

/-- The store's decision on a record of `m` cells. HOLD: RING_FULL when four records stand or one carries the
closed number, else NO_SPACE when too few cells are free, else admitted. DISCARD_OLDEST: admitted after the
smallest number of drops that leaves a place, frees enough cells and leaves no record of the closed number,
else NO_SPACE (R89, R109, R110). -/
def Obligations.AdmissionFollowsTheRingPolicy : Prop :=
  ∀ (s : State) (g : GroupId) (m : Nat),
    let ring := s.ring g
    let numbered := fun rs : List SnapRecord => ∃ r ∈ rs, r.interval = (s.group g).interval
    let suffices_ := fun k : Nat => (ring.drop k).length ≤ 3 ∧
      m ≤ s.freeCells + cellsHeld (ring.take k) ∧ ¬numbered (ring.drop k)
    ((s.group g).policy = .hold → ring.length ≤ 4 →
      (ring.length = 4 ∨ numbered ring → s.admission g m = .ringFull) ∧
      (ring.length < 4 → ¬numbered ring → s.freeCells < m → s.admission g m = .noSpace) ∧
      (ring.length < 4 → ¬numbered ring → m ≤ s.freeCells → s.admission g m = .admitted 0)) ∧
    ((s.group g).policy = .discardOldest →
      (∀ k, k ≤ ring.length → suffices_ k → (∀ j, j < k → ¬suffices_ j) → s.admission g m = .admitted k) ∧
      ((∀ k, k ≤ ring.length → ¬suffices_ k) → s.admission g m = .noSpace) ∧
      (ring.length ≤ 4 → s.freeCells + cellsHeld ring < m → s.admission g m = .noSpace))

/-- CLOSE by the administrator of an OPEN group with members and readers that the store admits starts the
close and is answered ACCEPTED, snapshot made: yes (R87, R88, R93, R110, R111). That reader sets name no port
twice is part of the invariant StoreSound. -/
def Obligations.CloseStartsWhenAdmitted : Prop :=
  ∀ (s : State) (p : PortId) (tag : Byte) (g : GroupId) (k : Nat), s.serves p →
    (s.group g).admin = some p → (s.group g).state = .opened → s.membersOf g ≠ [] →
    s.readersOf (s.membersOf g) ≠ [] → s.admission g (s.membersOf g).length = .admitted k →
    (∀ r ∈ s.ring g, r.readers.Nodup) →
    ∃ t, exec (.close p tag [byteOf g.val]) s = .next t ∧
      s.answeredTo t p tag .accepted
        (beBytes 4 (s.group g).interval.toNat ++ beBytes 2 (s.membersOf g).length ++ [1]) ∧
      s.closeStarted t g (s.group g) .manual k ∧ (s.port p).sameEngine (t.port p) ∧
      (t.port p).view = (s.port p).view ∧ (t.port p).fifo = (s.port p).fifo ∧
      ∀ q, q ≠ p → (s.port q).sameButEvents (t.port q)

/-- The other outcomes of CLOSE: NOT_ADMIN; BUSY while CLOSING; an unobserved close, answered ACCEPTED with
snapshot made: no; RING_FULL and NO_SPACE, which change nothing (R82, R87, R89, R90). The member list and
the reader set are those of R88. -/
def Obligations.CloseWithoutARecord : Prop :=
  ∀ (s : State) (p : PortId) (tag : Byte) (g : GroupId), s.serves p →
    let c := Instr.close p tag [byteOf g.val]
    let only := fun st : Status => ∃ t, exec c s = .next t ∧ s.onlyAnswered t p tag st []
    let observed := s.membersOf g ≠ [] ∧ s.readersOf (s.membersOf g) ≠ []
    ((s.group g).admin ≠ some p → only .notAdmin) ∧
    ((s.group g).admin = some p → (s.group g).state = .closing → only .busy) ∧
    ((s.group g).admin = some p → (s.group g).state = .opened → ¬observed →
      ∃ t, exec c s = .next t ∧ s.answeredTo t p tag .accepted
          (beBytes 4 (s.group g).interval.toNat ++ beBytes 2 (s.membersOf g).length ++ [0]) ∧
        s.closedUnobserved t g (s.group g) ∧ (s.port p).sameButAnswer (t.port p) ∧ s.samePortsBut t p) ∧
    ((s.group g).admin = some p → (s.group g).state = .opened → observed →
      (s.admission g (s.membersOf g).length = .ringFull → only .ringFull) ∧
      (s.admission g (s.membersOf g).length = .noSpace → only .noSpace)) ∧
    (∀ u, u ∈ s.membersOf g ↔ (s.tally u).state ≠ .free ∧ (s.tally u).group = g) ∧
    (s.membersOf g).Pairwise (· < ·) ∧
    (∀ q, q ∈ s.readersOf (s.membersOf g) ↔
      ∃ u ∈ s.membersOf g, (∃ h e, s.viewEntry q h = some e ∧ e.tally = u) ∧ (s.rightsOf q u).read = true)

/-- GROUP_STATUS and SNAP_LIST report a group's record, its ring and the pool to any ONLINE port and change
nothing (R101, R114, R170). -/
def Obligations.GroupStatusAndSnapListReport : Prop :=
  ∀ (s : State) (p : PortId) (tag : Byte) (g : GroupId), s.serves p →
    let x := s.group g
    (∃ t, exec (.groupStatus p tag [byteOf g.val]) s = .next t ∧
      s.onlyAnswered t p tag .ok ([byteOf g.val, x.state.code] ++ beBytes 4 x.interval.toNat ++
        [match x.admin with | none => 0xFF | some q => byteOf q.val] ++ beBytes 2 x.period ++
        beBytes 2 x.countdown ++ [x.policy.code, byteOf x.missed] ++
        beBytes 2 ((List.finRange 256).filter fun u => (s.tally u).state != .free && (s.tally u).group == g).length ++
        byteOf (s.ring g).length :: (s.ring g).flatMap fun r => beBytes 4 r.interval.toNat ++ [r.state.code])) ∧
    (∃ t, exec (.snapList p tag [byteOf g.val]) s = .next t ∧
      s.onlyAnswered t p tag .ok (byteOf g.val :: beBytes 2 s.freeCells ++ byteOf (s.ring g).length ::
        (s.ring g).flatMap fun r => beBytes 4 r.interval.toNat ++ [r.state.code] ++
          beBytes 2 r.members.length ++ [r.cause.code, byteOf r.missedBefore,
            if p ∈ r.readers then 1 else 0, byteOf r.readers.length]))

/-- READ_SNAP makes its checks in order and returns up to eight cells of a READY record from position `first`,
changing nothing (R115, R170). -/
def Obligations.ReadSnapReturnsCells : Prop :=
  ∀ (s : State) (p : PortId) (tag : Byte) (g : GroupId) (n : Interval) (first count : Byte), s.serves p →
    1 ≤ count.toNat → count.toNat ≤ 8 →
    let c := Instr.readSnap p tag (byteOf g.val :: beBytes 4 n.toNat ++ [first, count])
    let only := fun (st : Status) (payload : List Byte) =>
      ∃ t, exec c s = .next t ∧ s.onlyAnswered t p tag st payload
    ((∀ r ∈ s.ring g, r.interval ≠ n) → only .notHeld []) ∧
    ∀ older r newer, s.ring g = older ++ r :: newer → (∀ o ∈ older, o.interval ≠ n) → r.interval = n →
      (r.state = .filling → only .notReady []) ∧
      (r.state = .ready → p ∉ r.readers → only .noRight []) ∧
      (r.state = .ready → p ∈ r.readers → r.members.length ≤ first.toNat → only .badArg []) ∧
      ∀ cells : List SnapCell, r.state = .ready → p ∈ r.readers → first.toNat < r.members.length →
        r.cells = cells.map some → cells.length = r.members.length →
        only .ok (byteOf g.val :: beBytes 4 n.toNat ++ beBytes 2 r.members.length ++
          byteOf (min count.toNat (r.members.length - first.toNat)) ::
          (((r.members.zip cells).drop first.toNat).take count.toNat).flatMap fun m =>
            byteOf m.1.val :: valueBytes m.2.value ++ beBytes 4 m.2.count ++
              [if m.2.overflow then 1 else 0, if m.2.frozen then 1 else 0])

/-- RELEASE takes the caller out of the reader set of one record: a READY record left without readers is
removed and its cells freed, a FILLING one is marked discard pending; no event is posted (R108, R117). The
hypothesis that no other record carries the number is R105. -/
def Obligations.ReleaseLeavesTheReaderSet : Prop :=
  ∀ (s : State) (p : PortId) (tag : Byte) (g : GroupId) (n : Interval), s.serves p →
    let c := Instr.release p tag (byteOf g.val :: beBytes 4 n.toNat)
    let only := fun st : Status => ∃ t, exec c s = .next t ∧ s.onlyAnswered t p tag st []
    ((∀ r ∈ s.ring g, r.interval ≠ n) → only .notHeld) ∧
    ∀ older r newer, s.ring g = older ++ r :: newer → (∀ o ∈ older ++ newer, o.interval ≠ n) → r.interval = n →
      (p ∉ r.readers → only .noRight) ∧
      (p ∈ r.readers → ∃ t, exec c s = .next t ∧
        s.answeredTo t p tag .ok (byteOf g.val :: beBytes 4 n.toNat ++
          [byteOf (r.readers.filter (· ≠ p)).length, if (r.afterLeaving p).isNone then 1 else 0]) ∧
        t.ring g = older ++ (r.afterLeaving p).toList ++ newer ∧
        t.freeCells = s.freeCells + (if (r.afterLeaving p).isNone then r.members.length else 0) ∧
        (s.port p).sameButAnswer (t.port p) ∧ s.samePortsBut t p ∧ s.sameTallies t ∧ s.sameGroups t ∧
        s.sameRingsBut t g ∧ s.sameRest t)

/-- A rising TICK edge lowers every running countdown that it does not bring to 0, in an action of each group;
a group whose period is 0 ignores it. An edge that brings a countdown to 0, or that comes while an earlier
one still waits, is owed to the group's own action, TIMED_CLOSE_ATTEMPT (R85; the split is the model's, log
entry 4). -/
def Obligations.TickLowersTheCountdowns : Prop :=
  ∀ s : State, s.resetPin = false →
    ∃ t, exec .tick s = .next t ∧ s.sameTallies t ∧ s.sameStore t ∧ s.sameRest t ∧
      (∀ p, t.port p = s.port p) ∧ ∀ g,
        ((s.group g).period = 0 → t.group g = s.group g) ∧
        ((s.group g).period ≠ 0 → (s.group g).owedEdges = 0 → 1 < (s.group g).countdown →
          t.group g = { s.group g with countdown := (s.group g).countdown - 1 }) ∧
        ((s.group g).period ≠ 0 → 0 < (s.group g).owedEdges ∨ (s.group g).countdown ≤ 1 →
          t.group g = { s.group g with owedEdges := (s.group g).owedEdges + 1 })

/-- The group's action on an edge owed to it: the countdown is reloaded to the period and a timed close is
attempted. CLOSING, RING_FULL and NO_SPACE make it missed: the missed count rises, stopping at 255, and
CLOSE_MISSED goes to the administrator; else the close starts with cause TIMED, or is unobserved (R85, R86,
R92, R93). That TICK leaves an edge to this action is the model's split, and two clauses are its choice (log
entry 4): an edge that meets a period set to 0 since is ignored, and one that meets a countdown above 1 only
lowers it. -/
def Obligations.TimedCloseIsMadeOrMissed : Prop :=
  ∀ (s : State) (g : GroupId), s.resetPin = false → 0 < (s.group g).owedEdges →
    let c := Instr.timedCloseAttempt g
    let x : Group := { s.group g with owedEdges := (s.group g).owedEdges - 1 }
    let y : Group := { x with countdown := x.period }
    let m := (s.membersOf g).length
    let observed := s.membersOf g ≠ [] ∧ s.readersOf (s.membersOf g) ≠ []
    let portsKept := fun t : State => ∀ q, (s.port q).sameButEvents (t.port q)
    let missed := fun why : MissedReason => ∃ t, exec c s = .next t ∧
      t.group g = { y with missed := if y.missed < 255 then y.missed + 1 else y.missed } ∧
      s.eventsAre t (fun q => if y.admin = some q then [(.closeMissed, .group g, .missed why)] else []) ∧
      portsKept t ∧ s.sameTallies t ∧ s.sameGroupsBut t g ∧ s.sameStore t ∧ s.sameRest t
    (x.period = 0 → ∃ t, exec c s = .next t ∧ t.group g = x ∧ s.sameGroupsBut t g ∧
      (∀ q, t.port q = s.port q) ∧ s.sameTallies t ∧ s.sameStore t ∧ s.sameRest t) ∧
    (x.period ≠ 0 → 1 < x.countdown → ∃ t, exec c s = .next t ∧
      t.group g = { x with countdown := x.countdown - 1 } ∧ s.sameGroupsBut t g ∧
      (∀ q, t.port q = s.port q) ∧ s.sameTallies t ∧ s.sameStore t ∧ s.sameRest t) ∧
    (x.period ≠ 0 → x.countdown ≤ 1 →
      (x.state = .closing → missed .closing) ∧
      (x.state = .opened → ¬observed →
        ∃ t, exec c s = .next t ∧ s.closedUnobserved t g y ∧ portsKept t) ∧
      (x.state = .opened → observed →
        (s.admission g m = .ringFull → missed .ringFull) ∧
        (s.admission g m = .noSpace → missed .noSpace) ∧
        (∀ k, s.admission g m = .admitted k → (∀ r ∈ s.ring g, r.readers.Nodup) →
          ∃ t, exec c s = .next t ∧ s.closeStarted t g y .timed k ∧ portsKept t)))

/-- The copier of a CLOSING group acts on the next member of the filling record: the copy step when it is owed,
nothing when it is not. Once its walk has ended the close end opens the group and makes the record READY, with
SNAPSHOT_READY to its readers, or removes it without an event when discard is pending (R97, R98). The shape of
the ring is that of the invariant StoreSound. The walk count is deduced (log entry 14), and that CLOSE_END before
the walk has ended does nothing is the model's choice (log entry 3). -/
def Obligations.CopierWalksAndEndsTheClose : Prop :=
  ∀ (s : State) (g : GroupId) (old : List SnapRecord) (r : SnapRecord), s.resetPin = false →
    (s.group g).state = .closing → s.ring g = old ++ [r] → r.state = .filling →
    (∀ o ∈ old, o.state = .ready) →
    (∀ u, r.members[(s.group g).walk]? = some u →
      ∃ t, exec (.copierStep g) s = .next t ∧ t.group g = { s.group g with walk := (s.group g).walk + 1 } ∧
        s.sameGroupsBut t g ∧ (∀ q, t.port q = s.port q) ∧ t.freeCells = s.freeCells ∧ s.sameRest t ∧
        (s.owed u = true → (∀ v, t.tally v = (s.copyStep u).tally v) ∧ ∀ k, t.ring k = (s.copyStep u).ring k) ∧
        (s.owed u = false → s.sameTallies t ∧ ∀ k, t.ring k = s.ring k)) ∧
    (r.members.length ≤ (s.group g).walk →
      ∃ t, exec (.closeEnd g) s = .next t ∧ t.group g = { s.group g with state := .opened, walk := 0 } ∧
        s.sameGroupsBut t g ∧ s.sameTallies t ∧ s.sameRingsBut t g ∧ s.sameRest t ∧
        (∀ q, (s.port q).sameButEvents (t.port q)) ∧
        (r.discard = true → t.ring g = old ∧ t.freeCells = s.freeCells + r.members.length ∧
          s.eventsAre t fun _ => []) ∧
        (r.discard = false → r.readers.Nodup →
          t.ring g = old ++ [{ r with state := .ready }] ∧ t.freeCells = s.freeCells ∧
          s.eventsAre t fun q =>
            if q ∈ r.readers then [(.snapshotReady, .group g, .interval r.interval)] else [])) ∧
    ((s.group g).walk < r.members.length → exec (.closeEnd g) s = .next s)

/-! ## Invariants that every step keeps -/

/-- ALERTn# is asserted exactly while the port is ONLINE and the marker or a queued event is deliverable: its
class not in the mask, and above that of the top of the in-service stack where one stands. Kept by every step
(R139, R142, R146). -/
def Obligations.EveryStepKeepsAlertsFollow : Prop :=
  ∀ s t : State, s.AlertsFollow → step s = .next t → t.AlertsFollow

/-- Free cells and held cells always total 1024: kept by every step (R104). -/
def Obligations.EveryStepKeepsCellsConserved : Prop :=
  ∀ s t : State, s.CellsConserved → step s = .next t → t.CellsConserved

/-- Bind counts and staged counts equal the entries that name the tally, a FREE tally is named by none, and a
port names a tally by at most one handle: kept by every step (R18, R27, R48). -/
def Obligations.EveryStepKeepsCountsAgree : Prop :=
  ∀ s t : State, s.CountsAgree → step s = .next t → t.CountsAgree

/-- At most 4 records in a ring, no two of one interval number, the newest FILLING exactly while the group is
CLOSING, and READY records with readers: kept by every step (R105, R108). -/
def Obligations.EveryStepKeepsStoreSound : Prop :=
  ∀ s t : State, s.StoreSound → step s = .next t → t.StoreSound

/-- At most 15 queued entries, no two of one kind and subject, classes rising strictly in the in-service stack,
and an OFFLINE port's block empty: kept by every step (R137, R142, R147). -/
def Obligations.EveryStepKeepsEventsSound : Prop :=
  ∀ s t : State, s.EventsSound → step s = .next t → t.EventsSound

/-- An OFFLINE port holds no view entry, reader-set place or role, a session end in progress holds the slot
WORKING and has torn down what its steps so far tear down: kept by every step (R160, R161, R164). -/
def Obligations.EveryStepKeepsSessionsSound : Prop :=
  ∀ s t : State, s.SessionsSound → step s = .next t → t.SessionsSound

/-- Interval tags agree with group numbers outside a close, and during one each member is either copied with
the group's number or uncopied with the closed interval's: kept by every step (R80). -/
def Obligations.EveryStepKeepsTagsSound : Prop :=
  ∀ s t : State, s.CountsAgree → s.StoreSound → s.TagsSound → step s = .next t → t.TagsSound

/-- The numbers in tally records, view entries, staged contributions, event records, group records and snapshot
records lie in the ranges the manual gives them: kept by every step. The premise that the counts agree with the
views and the FIFOs bounds the bind and staged counts (R2, R6, R7, R11, R12, R25, R47, R79, R85, R106, R107,
R134, R139). -/
def Obligations.EveryStepKeepsFieldsSound : Prop :=
  ∀ s t : State, s.CountsAgree → s.FieldsSound → step s = .next t → t.FieldsSound

/-- The state after RESET# meets every invariant above. -/
def Obligations.ResetIsSound : Prop :=
  State.reset.AlertsFollow ∧ State.reset.CellsConserved ∧ State.reset.CountsAgree ∧ State.reset.StoreSound ∧
    State.reset.EventsSound ∧ State.reset.SessionsSound ∧ State.reset.TagsSound ∧ State.reset.FieldsSound
end

