-- ==== Sys2Proof/Laws/State.lean ====
section
/-! SUPPORT. One lemma per field per update of the state, so that no proof unfolds a record update. -/

namespace Sys2Proof.Machine

variable (s : State) (t u : TallyId) (p q : PortId) (g h : GroupId)

@[simp] theorem tabulate_get {α : Type} {n : Nat} (f : Fin n → α) (i : Fin n) : (tabulate f)[i] = f i := by
  simp [tabulate]

/-! ## One tally -/

theorem State.tally_setTally (x : Tally) : (s.setTally t x).tally u = if u = t then x else s.tally u := by
  simp only [State.tally, State.setTally, Fin.getElem_fin, Vector.getElem_set, Fin.ext_iff, eq_comm]

@[simp] theorem State.tally_setTally_self (x : Tally) : (s.setTally t x).tally t = x := by
  simp [State.tally_setTally]

@[simp] theorem State.tally_setTally_ne (x : Tally) (h : u ≠ t) : (s.setTally t x).tally u = s.tally u := by
  simp [State.tally_setTally, h]

@[simp] theorem State.port_setTally (x : Tally) : (s.setTally t x).port p = s.port p := rfl
@[simp] theorem State.group_setTally (x : Tally) : (s.setTally t x).group g = s.group g := rfl
@[simp] theorem State.ring_setTally (x : Tally) : (s.setTally t x).ring g = s.ring g := rfl
@[simp] theorem State.freeCells_setTally (x : Tally) : (s.setTally t x).freeCells = s.freeCells := rfl
@[simp] theorem State.pointer_setTally (x : Tally) : (s.setTally t x).pointer = s.pointer := rfl
@[simp] theorem State.resetPin_setTally (x : Tally) : (s.setTally t x).resetPin = s.resetPin := rfl
@[simp] theorem State.draws_setTally (x : Tally) : (s.setTally t x).draws = s.draws := rfl
@[simp] theorem State.pending_setTally (x : Tally) : (s.setTally t x).pending = s.pending := rfl

/-! ## Every tally -/

@[simp] theorem State.tally_mapTallies (f : TallyId → Tally → Tally) :
    (s.mapTallies f).tally t = f t (s.tally t) := by
  simp only [State.mapTallies, State.tally]
  exact tabulate_get _ t

@[simp] theorem State.port_mapTallies (f : TallyId → Tally → Tally) : (s.mapTallies f).port p = s.port p := rfl
@[simp] theorem State.group_mapTallies (f : TallyId → Tally → Tally) : (s.mapTallies f).group g = s.group g := rfl
@[simp] theorem State.ring_mapTallies (f : TallyId → Tally → Tally) : (s.mapTallies f).ring g = s.ring g := rfl
@[simp] theorem State.freeCells_mapTallies (f : TallyId → Tally → Tally) :
    (s.mapTallies f).freeCells = s.freeCells := rfl
@[simp] theorem State.pointer_mapTallies (f : TallyId → Tally → Tally) : (s.mapTallies f).pointer = s.pointer := rfl
@[simp] theorem State.resetPin_mapTallies (f : TallyId → Tally → Tally) :
    (s.mapTallies f).resetPin = s.resetPin := rfl
@[simp] theorem State.draws_mapTallies (f : TallyId → Tally → Tally) : (s.mapTallies f).draws = s.draws := rfl
@[simp] theorem State.pending_mapTallies (f : TallyId → Tally → Tally) : (s.mapTallies f).pending = s.pending := rfl

/-! ## One port -/

theorem State.port_setPort (x : Port) : (s.setPort p x).port q = if q = p then x.driveAlert else s.port q := by
  simp only [State.port, State.setPort, Fin.getElem_fin, Vector.getElem_set, Fin.ext_iff, eq_comm]

@[simp] theorem State.port_setPort_self (x : Port) : (s.setPort p x).port p = x.driveAlert := by
  simp [State.port_setPort]

@[simp] theorem State.port_setPort_ne (x : Port) (h : q ≠ p) : (s.setPort p x).port q = s.port q := by
  simp [State.port_setPort, h]

@[simp] theorem State.tally_setPort (x : Port) : (s.setPort p x).tally t = s.tally t := rfl
@[simp] theorem State.group_setPort (x : Port) : (s.setPort p x).group g = s.group g := rfl
@[simp] theorem State.ring_setPort (x : Port) : (s.setPort p x).ring g = s.ring g := rfl
@[simp] theorem State.freeCells_setPort (x : Port) : (s.setPort p x).freeCells = s.freeCells := rfl
@[simp] theorem State.pointer_setPort (x : Port) : (s.setPort p x).pointer = s.pointer := rfl
@[simp] theorem State.resetPin_setPort (x : Port) : (s.setPort p x).resetPin = s.resetPin := rfl
@[simp] theorem State.draws_setPort (x : Port) : (s.setPort p x).draws = s.draws := rfl
@[simp] theorem State.pending_setPort (x : Port) : (s.setPort p x).pending = s.pending := rfl

/-! ## The pin that follows every write of a port -/

variable (x : Port)

@[simp] theorem Port.driveAlert_session : x.driveAlert.session = x.session := rfl
@[simp] theorem Port.driveAlert_number : x.driveAlert.number = x.number := rfl
@[simp] theorem Port.driveAlert_slot : x.driveAlert.slot = x.slot := rfl
@[simp] theorem Port.driveAlert_reason : x.driveAlert.reason = x.reason := rfl
@[simp] theorem Port.driveAlert_link : x.driveAlert.link = x.link := rfl
@[simp] theorem Port.driveAlert_sessionEnd : x.driveAlert.sessionEnd = x.sessionEnd := rfl
@[simp] theorem Port.driveAlert_posting : x.driveAlert.posting = x.posting := rfl
@[simp] theorem Port.driveAlert_view : x.driveAlert.view = x.view := rfl
@[simp] theorem Port.driveAlert_fifo : x.driveAlert.fifo = x.fifo := rfl
@[simp] theorem Port.driveAlert_events : x.driveAlert.events = x.events := rfl
@[simp] theorem Port.driveAlert_prst : x.driveAlert.prst = x.prst := rfl
@[simp] theorem Port.driveAlert_so : x.driveAlert.so = x.so := rfl
@[simp] theorem Port.driveAlert_alert : x.driveAlert.alert = x.alertLevel := rfl
@[simp] theorem Port.driveAlert_alertLevel : x.driveAlert.alertLevel = x.alertLevel := rfl
@[simp] theorem Port.driveAlert_driveAlert : x.driveAlert.driveAlert = x.driveAlert := rfl

/-- Where the pin already follows, driving it changes nothing. -/
theorem Port.driveAlert_eq (h : x.alert = x.alertLevel) : x.driveAlert = x := by
  unfold Port.driveAlert
  rw [← h]

/-! ## One group -/

theorem State.group_setGroup (y : Group) : (s.setGroup g y).group h = if h = g then y else s.group h := by
  simp only [State.group, State.setGroup, Fin.getElem_fin, Vector.getElem_set, Fin.ext_iff, eq_comm]

@[simp] theorem State.group_setGroup_self (y : Group) : (s.setGroup g y).group g = y := by
  simp [State.group_setGroup]

@[simp] theorem State.group_setGroup_ne (y : Group) (e : h ≠ g) : (s.setGroup g y).group h = s.group h := by
  simp [State.group_setGroup, e]

@[simp] theorem State.tally_setGroup (y : Group) : (s.setGroup g y).tally t = s.tally t := rfl
@[simp] theorem State.port_setGroup (y : Group) : (s.setGroup g y).port p = s.port p := rfl
@[simp] theorem State.ring_setGroup (y : Group) : (s.setGroup g y).ring h = s.ring h := rfl
@[simp] theorem State.freeCells_setGroup (y : Group) : (s.setGroup g y).freeCells = s.freeCells := rfl
@[simp] theorem State.pointer_setGroup (y : Group) : (s.setGroup g y).pointer = s.pointer := rfl
@[simp] theorem State.resetPin_setGroup (y : Group) : (s.setGroup g y).resetPin = s.resetPin := rfl
@[simp] theorem State.draws_setGroup (y : Group) : (s.setGroup g y).draws = s.draws := rfl
@[simp] theorem State.pending_setGroup (y : Group) : (s.setGroup g y).pending = s.pending := rfl

/-! ## One ring -/

theorem State.ring_setRing (r : List SnapRecord) : (s.setRing g r).ring h = if h = g then r else s.ring h := by
  simp only [State.ring, State.setRing, Fin.getElem_fin, Vector.getElem_set, Fin.ext_iff, eq_comm]

@[simp] theorem State.ring_setRing_self (r : List SnapRecord) : (s.setRing g r).ring g = r := by
  simp [State.ring_setRing]

@[simp] theorem State.ring_setRing_ne (r : List SnapRecord) (e : h ≠ g) : (s.setRing g r).ring h = s.ring h := by
  simp [State.ring_setRing, e]

@[simp] theorem State.tally_setRing (r : List SnapRecord) : (s.setRing g r).tally t = s.tally t := rfl
@[simp] theorem State.port_setRing (r : List SnapRecord) : (s.setRing g r).port p = s.port p := rfl
@[simp] theorem State.group_setRing (r : List SnapRecord) : (s.setRing g r).group h = s.group h := rfl
@[simp] theorem State.freeCells_setRing (r : List SnapRecord) : (s.setRing g r).freeCells = s.freeCells := rfl
@[simp] theorem State.pointer_setRing (r : List SnapRecord) : (s.setRing g r).pointer = s.pointer := rfl
@[simp] theorem State.resetPin_setRing (r : List SnapRecord) : (s.setRing g r).resetPin = s.resetPin := rfl
@[simp] theorem State.draws_setRing (r : List SnapRecord) : (s.setRing g r).draws = s.draws := rfl
@[simp] theorem State.pending_setRing (r : List SnapRecord) : (s.setRing g r).pending = s.pending := rfl

/-! ## The model's own fields -/

@[simp] theorem State.tally_draw : s.draw.tally t = s.tally t := rfl
@[simp] theorem State.port_draw : s.draw.port p = s.port p := rfl
@[simp] theorem State.group_draw : s.draw.group g = s.group g := rfl
@[simp] theorem State.ring_draw : s.draw.ring g = s.ring g := rfl
@[simp] theorem State.freeCells_draw : s.draw.freeCells = s.freeCells := rfl
@[simp] theorem State.pointer_draw : s.draw.pointer = s.pointer := rfl
@[simp] theorem State.resetPin_draw : s.draw.resetPin = s.resetPin := rfl
@[simp] theorem State.draws_draw : s.draw.draws = s.draws + 1 := rfl
@[simp] theorem State.pending_draw : s.draw.pending = s.pending := rfl

variable (l : List Instr)

@[simp] theorem State.tally_setPending : (s.setPending l).tally t = s.tally t := rfl
@[simp] theorem State.port_setPending : (s.setPending l).port p = s.port p := rfl
@[simp] theorem State.group_setPending : (s.setPending l).group g = s.group g := rfl
@[simp] theorem State.ring_setPending : (s.setPending l).ring g = s.ring g := rfl
@[simp] theorem State.freeCells_setPending : (s.setPending l).freeCells = s.freeCells := rfl
@[simp] theorem State.pointer_setPending : (s.setPending l).pointer = s.pointer := rfl
@[simp] theorem State.resetPin_setPending : (s.setPending l).resetPin = s.resetPin := rfl
@[simp] theorem State.draws_setPending : (s.setPending l).draws = s.draws := rfl
@[simp] theorem State.pending_setPending : (s.setPending l).pending = l := rfl

/-! ## Two states with the same tables are equal -/

theorem State.ext_tables {a b : State} (ht : ∀ t, a.tally t = b.tally t) (hp : ∀ p, a.port p = b.port p)
    (hg : ∀ g, a.group g = b.group g) (hr : ∀ g, a.ring g = b.ring g) (hf : a.freeCells = b.freeCells)
    (hq : a.pointer = b.pointer) (hx : a.resetPin = b.resetPin) (hd : a.draws = b.draws)
    (hw : a.pending = b.pending) : a = b := by
  obtain ⟨at_, ap, ag, ar, af, aq, ax, ad, aw⟩ := a
  obtain ⟨bt, bp, bg, br, bf, bq, bx, bd, bw⟩ := b
  have h1 : at_ = bt := Vector.ext fun i hi => ht ⟨i, hi⟩
  have h2 : ap = bp := Vector.ext fun i hi => hp ⟨i, hi⟩
  have h3 : ag = bg := Vector.ext fun i hi => hg ⟨i, hi⟩
  have h4 : ar = br := Vector.ext fun i hi => hr ⟨i, hi⟩
  simp only at hf hq hx hd hw
  subst h1 h2 h3 h4 hf hq hx hd hw
  rfl

end Sys2Proof.Machine
end

