-- ==== Sys2Proof/Laws/Ops.lean ====
section
/-! SUPPORT. For each shared operation, what it can do: the fields it moves and the fields it leaves. -/

namespace Sys2Proof.Machine

variable (s : State) (t u : TallyId) (p q : PortId) (g k : GroupId)

/-! ## Writing a port twice, and writing different tables -/

@[simp] theorem State.setPort_setPort (x y : Port) : (s.setPort p x).setPort p y = s.setPort p y := by
  simp [State.setPort]

theorem Port.driveAlert_congr {x y : Port} (h : x = { y with alert := x.alert }) : x.driveAlert = y.driveAlert := by
  rw [h]; rfl

/-- Writing back a port whose pin follows changes nothing. -/
theorem State.setPort_port (h : (s.port p).alert = (s.port p).alertLevel) : s.setPort p (s.port p) = s := by
  apply State.ext_tables <;> intros <;> try rfl
  rename_i q
  by_cases e : q = p
  · subst e; simp [Port.driveAlert_eq _ h]
  · simp [e]

/-! ## A list of postings: postTo and postMoves are such lists -/

/-- One posting of a list: the port, then the event. -/
abbrev Posting := PortId × EventKind × Subject × Detail

/-- Some postings in order. -/
def State.postList (s : State) (l : List Posting) : State :=
  l.foldl (fun s e => s.post e.1 e.2.1 e.2.2.1 e.2.2.2) s

/-- The events of some postings that are addressed to port `q`. -/
def postedTo (l : List Posting) (q : PortId) : List (EventKind × Subject × Detail) :=
  (l.filter fun e => e.1 = q).map (·.2)

variable (l m : List Posting)

@[simp] theorem State.postList_nil : s.postList [] = s := rfl

@[simp] theorem State.postList_cons (e : Posting) :
    s.postList (e :: l) = (s.post e.1 e.2.1 e.2.2.1 e.2.2.2).postList l := rfl

theorem State.postList_append : s.postList (l ++ m) = (s.postList l).postList m := by
  simp [State.postList]

theorem State.postTo_eq (ps : List PortId) (k : EventKind) (u : Subject) (d : Detail) :
    s.postTo ps k u d = s.postList (ps.map fun p => (p, k, u, d)) := by
  simp [State.postTo, State.postList, List.foldl_map]

theorem State.postMoves_eq (ps : List PortId) (moves : List (EventKind × Side)) :
    s.postMoves t ps moves =
      s.postList (moves.flatMap fun m => ps.map fun p => (p, m.1, .tally t, .side m.2)) := by
  induction moves generalizing s with
  | nil => rfl
  | cons a l ih =>
    simp only [State.postMoves, List.foldl_cons, List.flatMap_cons, State.postList_append] at ih ⊢
    rw [ih, State.postTo_eq]

/-- A posting moves the event block of one ONLINE port and nothing else (R136, R137). -/
theorem State.port_post (k : EventKind) (u : Subject) (d : Detail) :
    (s.post p k u d).port q = if q = p ∧ (s.port p).session = .online then
      ({ s.port p with events := (s.port p).events.post k u d } : Port).driveAlert else s.port q := by
  unfold State.post
  cases h : (s.port p).session <;> simp [State.port_setPort]

section
variable (k : EventKind) (v : Subject) (d : Detail)

@[simp] theorem State.tally_post : (s.post p k v d).tally t = s.tally t := by
  unfold State.post; split <;> rfl
@[simp] theorem State.group_post : (s.post p k v d).group g = s.group g := by
  unfold State.post; split <;> rfl
@[simp] theorem State.ring_post : (s.post p k v d).ring g = s.ring g := by
  unfold State.post; split <;> rfl
@[simp] theorem State.freeCells_post : (s.post p k v d).freeCells = s.freeCells := by
  unfold State.post; split <;> rfl
@[simp] theorem State.pointer_post : (s.post p k v d).pointer = s.pointer := by
  unfold State.post; split <;> rfl
@[simp] theorem State.resetPin_post : (s.post p k v d).resetPin = s.resetPin := by
  unfold State.post; split <;> rfl
@[simp] theorem State.draws_post : (s.post p k v d).draws = s.draws := by
  unfold State.post; split <;> rfl
@[simp] theorem State.pending_post : (s.post p k v d).pending = s.pending := by
  unfold State.post; split <;> rfl

/-- All of a port but its event block and ALERTn# is left by a posting. -/
theorem State.sameButEvents_post : (s.port q).sameButEvents ((s.post p k v d).port q) := by
  rw [State.port_post]
  split
  · rename_i h; obtain ⟨rfl, -⟩ := h; simp [Port.sameButEvents, Port.sameEngine]
  · simp [Port.sameButEvents, Port.sameEngine]
end

theorem Port.sameButEvents.refl (x : Port) : x.sameButEvents x := by simp [Port.sameButEvents, Port.sameEngine]

theorem Port.sameButEvents.trans {x y z : Port} (h : x.sameButEvents y) (h' : y.sameButEvents z) :
    x.sameButEvents z := by
  simp only [Port.sameButEvents, Port.sameEngine] at *
  simp [h, h']

@[simp] theorem State.tally_postList : (s.postList l).tally t = s.tally t := by
  induction l generalizing s <;> simp [*]
@[simp] theorem State.group_postList : (s.postList l).group g = s.group g := by
  induction l generalizing s <;> simp [*]
@[simp] theorem State.ring_postList : (s.postList l).ring g = s.ring g := by
  induction l generalizing s <;> simp [*]
@[simp] theorem State.freeCells_postList : (s.postList l).freeCells = s.freeCells := by
  induction l generalizing s <;> simp [*]
@[simp] theorem State.pointer_postList : (s.postList l).pointer = s.pointer := by
  induction l generalizing s <;> simp [*]
@[simp] theorem State.resetPin_postList : (s.postList l).resetPin = s.resetPin := by
  induction l generalizing s <;> simp [*]
@[simp] theorem State.draws_postList : (s.postList l).draws = s.draws := by
  induction l generalizing s <;> simp [*]
@[simp] theorem State.pending_postList : (s.postList l).pending = s.pending := by
  induction l generalizing s <;> simp [*]

theorem State.sameButEvents_postList : (s.port q).sameButEvents ((s.postList l).port q) := by
  induction l generalizing s with
  | nil => exact .refl _
  | cons e l ih => exact (s.sameButEvents_post e.1 q ..).trans (ih _)

@[simp] theorem State.session_postList : ((s.postList l).port q).session = (s.port q).session :=
  (s.sameButEvents_postList q l).1.1
@[simp] theorem State.number_postList : ((s.postList l).port q).number = (s.port q).number :=
  (s.sameButEvents_postList q l).1.2.1
@[simp] theorem State.sessionEnd_postList : ((s.postList l).port q).sessionEnd = (s.port q).sessionEnd :=
  (s.sameButEvents_postList q l).1.2.2.1
@[simp] theorem State.posting_postList : ((s.postList l).port q).posting = (s.port q).posting :=
  (s.sameButEvents_postList q l).1.2.2.2.1
@[simp] theorem State.link_postList : ((s.postList l).port q).link = (s.port q).link :=
  (s.sameButEvents_postList q l).1.2.2.2.2.1
@[simp] theorem State.prst_postList : ((s.postList l).port q).prst = (s.port q).prst :=
  (s.sameButEvents_postList q l).1.2.2.2.2.2
@[simp] theorem State.slot_postList : ((s.postList l).port q).slot = (s.port q).slot :=
  (s.sameButEvents_postList q l).2.1
@[simp] theorem State.reason_postList : ((s.postList l).port q).reason = (s.port q).reason :=
  (s.sameButEvents_postList q l).2.2.1
@[simp] theorem State.so_postList : ((s.postList l).port q).so = (s.port q).so :=
  (s.sameButEvents_postList q l).2.2.2.1
@[simp] theorem State.view_postList : ((s.postList l).port q).view = (s.port q).view :=
  (s.sameButEvents_postList q l).2.2.2.2.1
@[simp] theorem State.fifo_postList : ((s.postList l).port q).fifo = (s.port q).fifo :=
  (s.sameButEvents_postList q l).2.2.2.2.2

/-- Each port's block takes, in order, the postings addressed to it, if the port is ONLINE (R136, R137). -/
theorem State.events_postList : ((s.postList l).port q).events =
    if (s.port q).session = .online then (s.port q).events.postAll (postedTo l q) else (s.port q).events := by
  induction l generalizing s with
  | nil => simp [postedTo, EventBlock.postAll]
  | cons e l ih =>
    have hs : ((s.post e.1 e.2.1 e.2.2.1 e.2.2.2).port q).session = (s.port q).session :=
      (s.sameButEvents_post e.1 q ..).1.1
    rw [State.postList_cons, ih, hs, State.port_post]
    by_cases hq : e.1 = q
    · subst hq
      by_cases ho : (s.port e.1).session = .online <;>
        simp [ho, postedTo, EventBlock.postAll]
    · have hq' : ¬q = e.1 := fun h => hq h.symm
      simp [hq, hq', postedTo]

@[simp] theorem postedTo_append : postedTo (l ++ m) q = postedTo l q ++ postedTo m q := by simp [postedTo]

@[simp] theorem postedTo_nil : postedTo [] q = [] := rfl

/-- One event to each of some ports, none of them named twice. -/
theorem postedTo_map (ps : List PortId) (h : ps.Nodup) (e : EventKind × Subject × Detail) :
    postedTo (ps.map fun p => (p, e)) q = if q ∈ ps then [e] else [] := by
  induction ps with
  | nil => rfl
  | cons a ps ih =>
    obtain ⟨ha, hps⟩ := List.nodup_cons.mp h
    simp only [postedTo, List.map_cons, List.filter_cons, List.mem_cons] at ih ⊢
    by_cases hq : a = q
    · subst hq; simp [ha] at ih ⊢; simpa using ih hps
    · have : ¬q = a := fun e => hq e.symm
      simpa [hq, this] using ih hps

/-! ## Evaluation with events -/

theorem State.evaluateWithEvents_eq : s.evaluateWithEvents t =
    (s.setTally t (s.tally t).evaluate).postList
      ((s.tally t).limitMoves.flatMap fun m => (s.watchers t).map fun p => (p, m.1, .tally t, .side m.2)) := by
  rw [State.evaluateWithEvents, State.postMoves_eq]

/-- Each watcher is sent every move, no other port any (R128). -/
theorem postedTo_moves (moves : List (EventKind × Side)) :
    postedTo (moves.flatMap fun m => (s.watchers t).map fun p => (p, m.1, .tally t, .side m.2)) q =
      s.limitEvents t moves q := by
  have hn : (s.watchers t).Nodup := (List.nodup_finRange 4).filter _
  have hm : q ∈ s.watchers t ↔ s.bound q t = true ∧ (s.rightsOf q t).watch = true := by
    simp [State.watchers]
  induction moves with
  | nil => simp [State.limitEvents]
  | cons a l ih =>
    rw [List.flatMap_cons, postedTo_append, ih, postedTo_map _ _ hn (a.1, .tally t, .side a.2)]
    simp only [State.limitEvents, ← hm]
    split <;> simp

/-! ## The copy step -/

@[simp] theorem State.tally_copyStep_self : (s.copyStep t).tally t =
    (s.tally t).startInterval (s.group (s.tally t).group).interval := by simp [State.copyStep]
@[simp] theorem State.tally_copyStep_ne (h : u ≠ t) : (s.copyStep t).tally u = s.tally u := by
  simp [State.copyStep, h]
@[simp] theorem State.port_copyStep : (s.copyStep t).port p = s.port p := rfl
@[simp] theorem State.group_copyStep : (s.copyStep t).group g = s.group g := rfl
theorem State.ring_copyStep : (s.copyStep t).ring g = if g = (s.tally t).group then
    (s.ring g).map fun r => r.writeCell t (s.tally t).closingCell else s.ring g := by
  simp only [State.copyStep, State.ring_setTally, State.ring_setRing]
  split <;> simp_all
@[simp] theorem State.freeCells_copyStep : (s.copyStep t).freeCells = s.freeCells := rfl
@[simp] theorem State.pointer_copyStep : (s.copyStep t).pointer = s.pointer := rfl
@[simp] theorem State.resetPin_copyStep : (s.copyStep t).resetPin = s.resetPin := rfl
@[simp] theorem State.draws_copyStep : (s.copyStep t).draws = s.draws := rfl
@[simp] theorem State.pending_copyStep : (s.copyStep t).pending = s.pending := rfl

@[simp] theorem State.touch_of_not_owed (h : s.owed t = false) : s.touch t = s := by simp [State.touch, h]
theorem State.touch_of_owed (h : s.owed t = true) : s.touch t = s.copyStep t := by simp [State.touch, h]

@[simp] theorem State.port_touch : (s.touch t).port p = s.port p := by unfold State.touch; split <;> simp
@[simp] theorem State.group_touch : (s.touch t).group g = s.group g := by unfold State.touch; split <;> simp
@[simp] theorem State.tally_touch_ne (h : u ≠ t) : (s.touch t).tally u = s.tally u := by
  unfold State.touch; split <;> simp [h]
@[simp] theorem State.freeCells_touch : (s.touch t).freeCells = s.freeCells := by unfold State.touch; split <;> simp
@[simp] theorem State.pointer_touch : (s.touch t).pointer = s.pointer := by unfold State.touch; split <;> simp
@[simp] theorem State.resetPin_touch : (s.touch t).resetPin = s.resetPin := by unfold State.touch; split <;> simp
@[simp] theorem State.draws_touch : (s.touch t).draws = s.draws := by unfold State.touch; split <;> simp
@[simp] theorem State.pending_touch : (s.touch t).pending = s.pending := by unfold State.touch; split <;> simp

section
variable (x : Tally) (n : Interval)

/-! What a new interval leaves of a tally record (R3). -/
@[simp] theorem Tally.evaluate_state : x.evaluate.state = x.state := by unfold Tally.evaluate; split <;> rfl
@[simp] theorem Tally.evaluate_kind : x.evaluate.kind = x.kind := by unfold Tally.evaluate; split <;> rfl
@[simp] theorem Tally.evaluate_group : x.evaluate.group = x.group := by unfold Tally.evaluate; split <;> rfl
@[simp] theorem Tally.evaluate_value : x.evaluate.value = x.value := by unfold Tally.evaluate; split <;> simp [*]
@[simp] theorem Tally.evaluate_policy : x.evaluate.policy = x.policy := by unfold Tally.evaluate; split <;> rfl
@[simp] theorem Tally.evaluate_resetOnClose : x.evaluate.resetOnClose = x.resetOnClose := by
  unfold Tally.evaluate; split <;> rfl
@[simp] theorem Tally.evaluate_tag : x.evaluate.tag = x.tag := by unfold Tally.evaluate; split <;> rfl
@[simp] theorem Tally.evaluate_count : x.evaluate.count = x.count := by unfold Tally.evaluate; split <;> rfl
@[simp] theorem Tally.evaluate_last : x.evaluate.last = x.last := by unfold Tally.evaluate; split <;> rfl
@[simp] theorem Tally.evaluate_overflow : x.evaluate.overflow = x.overflow := by
  unfold Tally.evaluate; split <;> rfl
@[simp] theorem Tally.evaluate_rollover : x.evaluate.rollover = x.rollover := by
  unfold Tally.evaluate; split <;> rfl
@[simp] theorem Tally.evaluate_rejected : x.evaluate.rejected = x.rejected := by
  unfold Tally.evaluate; split <;> rfl
@[simp] theorem Tally.evaluate_dropped : x.evaluate.dropped = x.dropped := by unfold Tally.evaluate; split <;> rfl
@[simp] theorem Tally.evaluate_token : x.evaluate.token = x.token := by unfold Tally.evaluate; split <;> rfl
@[simp] theorem Tally.evaluate_admin : x.evaluate.admin = x.admin := by unfold Tally.evaluate; split <;> rfl
@[simp] theorem Tally.evaluate_rights : x.evaluate.rights = x.rights := by unfold Tally.evaluate; split <;> rfl
@[simp] theorem Tally.evaluate_bindCount : x.evaluate.bindCount = x.bindCount := by
  unfold Tally.evaluate; split <;> rfl
@[simp] theorem Tally.evaluate_stagedCount : x.evaluate.stagedCount = x.stagedCount := by
  unfold Tally.evaluate; split <;> rfl

/-- An evaluation moves the trip states alone. -/
theorem Tally.evaluate_upper : x.evaluate.upper = match x.value with
    | none => x.upper
    | some v => x.upper.map fun l => (l.evaluate .upper v).1 := by unfold Tally.evaluate; split <;> simp [*]
theorem Tally.evaluate_lower : x.evaluate.lower = match x.value with
    | none => x.lower
    | some v => x.lower.map fun l => (l.evaluate .lower v).1 := by unfold Tally.evaluate; split <;> simp [*]

@[simp] theorem Tally.startInterval_state : (x.startInterval n).state = x.state := by simp [Tally.startInterval]
@[simp] theorem Tally.startInterval_kind : (x.startInterval n).kind = x.kind := by simp [Tally.startInterval]
@[simp] theorem Tally.startInterval_group : (x.startInterval n).group = x.group := by simp [Tally.startInterval]
@[simp] theorem Tally.startInterval_value : (x.startInterval n).value = x.valueAfterClose := by
  simp [Tally.startInterval]
@[simp] theorem Tally.startInterval_policy : (x.startInterval n).policy = x.policy := by
  simp [Tally.startInterval]
@[simp] theorem Tally.startInterval_resetOnClose : (x.startInterval n).resetOnClose = x.resetOnClose := by
  simp [Tally.startInterval]
@[simp] theorem Tally.startInterval_tag : (x.startInterval n).tag = n := by simp [Tally.startInterval]
@[simp] theorem Tally.startInterval_count : (x.startInterval n).count = 0 := by simp [Tally.startInterval]
@[simp] theorem Tally.startInterval_last : (x.startInterval n).last = x.last := by simp [Tally.startInterval]
@[simp] theorem Tally.startInterval_overflow : (x.startInterval n).overflow = x.overflow := by
  simp [Tally.startInterval]
@[simp] theorem Tally.startInterval_rollover : (x.startInterval n).rollover = x.rollover := by
  simp [Tally.startInterval]
@[simp] theorem Tally.startInterval_rejected : (x.startInterval n).rejected = x.rejected := by
  simp [Tally.startInterval]
@[simp] theorem Tally.startInterval_dropped : (x.startInterval n).dropped = x.dropped := by
  simp [Tally.startInterval]
@[simp] theorem Tally.startInterval_token : (x.startInterval n).token = x.token := by simp [Tally.startInterval]
@[simp] theorem Tally.startInterval_admin : (x.startInterval n).admin = x.admin := by simp [Tally.startInterval]
@[simp] theorem Tally.startInterval_rights : (x.startInterval n).rights = x.rights := by
  simp [Tally.startInterval]
@[simp] theorem Tally.startInterval_bindCount : (x.startInterval n).bindCount = x.bindCount := by
  simp [Tally.startInterval]
@[simp] theorem Tally.startInterval_stagedCount : (x.startInterval n).stagedCount = x.stagedCount := by
  simp [Tally.startInterval]
end

/-- After its copy step a tally is not owed (R95, R96). -/
theorem State.owed_copyStep : (s.copyStep t).owed t = false := by
  simp [State.owed]

/-- A copy step leaves the identity and the holders of every tally (R3). -/
theorem State.admin_touch : ((s.touch t).tally u).admin = (s.tally u).admin := by
  unfold State.touch; split
  · by_cases h : u = t
    · subst h; simp
    · simp [h]
  · rfl
theorem State.rights_touch : ((s.touch t).tally u).rights = (s.tally u).rights := by
  unfold State.touch; split
  · by_cases h : u = t
    · subst h; simp
    · simp [h]
  · rfl

/-! ## Records leaving a ring -/

@[simp] theorem State.tally_removeRecords (f : SnapRecord → Bool) : (s.removeRecords g f).tally t = s.tally t := rfl
@[simp] theorem State.port_removeRecords (f : SnapRecord → Bool) : (s.removeRecords g f).port p = s.port p := rfl
@[simp] theorem State.group_removeRecords (f : SnapRecord → Bool) :
    (s.removeRecords g f).group k = s.group k := rfl
@[simp] theorem State.pointer_removeRecords (f : SnapRecord → Bool) :
    (s.removeRecords g f).pointer = s.pointer := rfl
@[simp] theorem State.resetPin_removeRecords (f : SnapRecord → Bool) :
    (s.removeRecords g f).resetPin = s.resetPin := rfl
@[simp] theorem State.draws_removeRecords (f : SnapRecord → Bool) : (s.removeRecords g f).draws = s.draws := rfl
@[simp] theorem State.pending_removeRecords (f : SnapRecord → Bool) :
    (s.removeRecords g f).pending = s.pending := rfl
@[simp] theorem State.freeCells_removeRecords (f : SnapRecord → Bool) :
    (s.removeRecords g f).freeCells = s.freeCells + cellsHeld ((s.ring g).filter f) := rfl
theorem State.ring_removeRecords (f : SnapRecord → Bool) : (s.removeRecords g f).ring k =
    if k = g then (s.ring k).filter (fun r => !f r) else s.ring k := by
  show (s.setRing g _).ring k = _
  rw [State.ring_setRing]
  split <;> simp_all

@[simp] theorem State.tally_leaveReaders (f : SnapRecord → Bool) :
    (s.leaveReaders p g f).tally t = s.tally t := rfl
@[simp] theorem State.port_leaveReaders (f : SnapRecord → Bool) :
    (s.leaveReaders p g f).port q = s.port q := rfl
@[simp] theorem State.group_leaveReaders (f : SnapRecord → Bool) :
    (s.leaveReaders p g f).group k = s.group k := rfl
@[simp] theorem State.pointer_leaveReaders (f : SnapRecord → Bool) :
    (s.leaveReaders p g f).pointer = s.pointer := rfl
@[simp] theorem State.resetPin_leaveReaders (f : SnapRecord → Bool) :
    (s.leaveReaders p g f).resetPin = s.resetPin := rfl
@[simp] theorem State.draws_leaveReaders (f : SnapRecord → Bool) :
    (s.leaveReaders p g f).draws = s.draws := rfl
@[simp] theorem State.pending_leaveReaders (f : SnapRecord → Bool) :
    (s.leaveReaders p g f).pending = s.pending := rfl

/-- A record a port leaves is removed exactly when it is freed, and else stands without the port (R108). -/
theorem SnapRecord.afterLeaving_eq (r : SnapRecord) :
    r.afterLeaving p = if r.freedBy p then none else some (r.withoutReader p) := by
  obtain ⟨a, b, st, d, e, f, i, readers, dis⟩ := r
  by_cases hm : p ∈ readers
  · by_cases hr : readers.filter (· ≠ p) = []
    · cases st <;> simp_all [SnapRecord.afterLeaving, SnapRecord.freedBy, SnapRecord.withoutReader]
    · have : (readers.filter (· ≠ p)).isEmpty = false := by simpa [List.isEmpty_iff] using hr
      simp_all [SnapRecord.afterLeaving, SnapRecord.freedBy, SnapRecord.withoutReader]
  · simp [SnapRecord.afterLeaving, SnapRecord.freedBy, SnapRecord.withoutReader, hm]

/-- The ring a port leaves: record by record (R108). -/
theorem State.ring_leaveReaders (f : SnapRecord → Bool) : (s.leaveReaders p g f).ring k =
    if k = g then (s.ring k).filterMap fun r => if f r then r.afterLeaving p else some r else s.ring k := by
  simp only [State.leaveReaders, State.ring_setRing, State.ring_removeRecords]
  split
  · rename_i h; subst h
    simp only [if_true]
    induction s.ring k with
    | nil => rfl
    | cons r l ih =>
      simp only [List.filter_cons, List.filterMap_cons, SnapRecord.afterLeaving_eq]
      cases hf : f r <;> cases hr : r.freedBy p <;> simp_all [SnapRecord.afterLeaving_eq]
  · rfl

/-- The cells a leaving port frees (R104, R108). -/
theorem State.freeCells_leaveReaders (f : SnapRecord → Bool) :
    (s.leaveReaders p g f).freeCells = s.freeCells + cellsFreedBy (s.ring g) p f := by
  simp only [State.leaveReaders]
  show s.freeCells + cellsHeld _ = _
  congr 2
  simp only [SnapRecord.afterLeaving_eq]
  congr 1
  funext r
  cases r.freedBy p <;> simp

/-! ## Deliverability and ALERTn# in the words of R142 and R146 -/

theorem EventBlock.delivers_iff (b : EventBlock) (c : EventClass) :
    b.delivers c ↔ b.classDeliverable c = true := by
  have top : ∀ n : Nat, (b.stack = [] ∨ ∃ e rest, b.stack = e :: rest ∧ e.kind.cls.rank < n) ↔
      (match b.stack with | [] => true | e :: _ => decide (e.cls.rank < n)) = true := by
    intro n
    rcases b.stack with _ | ⟨e, rest⟩
    · simp
    · refine Iff.trans ?_ decide_eq_true_iff.symm
      simp [Event.cls]
  unfold EventBlock.delivers EventBlock.classDeliverable
  rw [Bool.and_eq_true, top, Bool.not_eq_true']
  cases c <;> exact Iff.rfl

theorem EventBlock.holdsDeliverable_iff (b : EventBlock) :
    b.holdsDeliverable ↔ b.hasDeliverable = true := by
  simp [EventBlock.holdsDeliverable, EventBlock.hasDeliverable, EventBlock.delivers_iff, Event.cls,
    Option.isSome_iff_ne_none]

theorem Port.alertFollows_iff (x : Port) : x.AlertFollows ↔ x.alert = x.alertLevel := by
  have level : x.alertLevel = true ↔ x.session = .online ∧ x.events.hasDeliverable = true := by
    rw [Port.alertLevel, Bool.and_eq_true, beq_iff_eq]
  rw [Port.AlertFollows, EventBlock.holdsDeliverable_iff, ← level]
  exact Bool.eq_iff_iff.symm

theorem State.alertsFollow_iff (s : State) : s.AlertsFollow ↔ ∀ p, (s.port p).alert = (s.port p).alertLevel :=
  forall_congr' fun _ => Port.alertFollows_iff _

end Sys2Proof.Machine
end

