-- ==== Sys2Proof/Laws/Link.lean ====
section
/-! SUPPORT. What taking a frame comes to: a request command on a port that can take it is its block's action
on the state with the frame taken, followed by the answer. -/

namespace Sys2Proof.Machine

variable (s : State) (t : TallyId) (p q : PortId) (g : GroupId) (tag : Byte)

/-- The state with the frame of tag `tag` taken, after `n` bits on SOn (R151, R157). -/
def State.taken (s : State) (p : PortId) (tag : Byte) (n : Nat) : State :=
  s.setPort p { s.port p with
    so := repeatBits (s.port p).statusByte 0 n, reason := .none, slot := .working (.request tag) }

variable (n : Nat)

@[simp] theorem State.tally_taken : (s.taken p tag n).tally t = s.tally t := rfl
@[simp] theorem State.group_taken : (s.taken p tag n).group g = s.group g := rfl
@[simp] theorem State.ring_taken : (s.taken p tag n).ring g = s.ring g := rfl
@[simp] theorem State.freeCells_taken : (s.taken p tag n).freeCells = s.freeCells := rfl
@[simp] theorem State.pointer_taken : (s.taken p tag n).pointer = s.pointer := rfl
@[simp] theorem State.resetPin_taken : (s.taken p tag n).resetPin = s.resetPin := rfl
@[simp] theorem State.draws_taken : (s.taken p tag n).draws = s.draws := rfl
@[simp] theorem State.pending_taken : (s.taken p tag n).pending = s.pending := rfl
@[simp] theorem State.port_taken_ne (h : q ≠ p) : (s.taken p tag n).port q = s.port q := by simp [State.taken, h]
theorem State.port_taken_self : (s.taken p tag n).port p = ({ s.port p with
    so := repeatBits (s.port p).statusByte 0 n, reason := .none, slot := .working (.request tag) } : Port).driveAlert := by
  simp [State.taken]

@[simp] theorem State.session_taken : ((s.taken p tag n).port q).session = (s.port q).session := by
  by_cases h : q = p
  · subst h; simp [State.port_taken_self]
  · simp [h]
@[simp] theorem State.number_taken : ((s.taken p tag n).port q).number = (s.port q).number := by
  by_cases h : q = p
  · subst h; simp [State.port_taken_self]
  · simp [h]
@[simp] theorem State.link_taken : ((s.taken p tag n).port q).link = (s.port q).link := by
  by_cases h : q = p
  · subst h; simp [State.port_taken_self]
  · simp [h]
@[simp] theorem State.sessionEnd_taken : ((s.taken p tag n).port q).sessionEnd = (s.port q).sessionEnd := by
  by_cases h : q = p
  · subst h; simp [State.port_taken_self]
  · simp [h]
@[simp] theorem State.posting_taken : ((s.taken p tag n).port q).posting = (s.port q).posting := by
  by_cases h : q = p
  · subst h; simp [State.port_taken_self]
  · simp [h]
@[simp] theorem State.prst_taken : ((s.taken p tag n).port q).prst = (s.port q).prst := by
  by_cases h : q = p
  · subst h; simp [State.port_taken_self]
  · simp [h]
@[simp] theorem State.view_taken : ((s.taken p tag n).port q).view = (s.port q).view := by
  by_cases h : q = p
  · subst h; simp [State.port_taken_self]
  · simp [h]
@[simp] theorem State.fifo_taken : ((s.taken p tag n).port q).fifo = (s.port q).fifo := by
  by_cases h : q = p
  · subst h; simp [State.port_taken_self]
  · simp [h]
@[simp] theorem State.events_taken : ((s.taken p tag n).port q).events = (s.port q).events := by
  by_cases h : q = p
  · subst h; simp [State.port_taken_self]
  · simp [h]
@[simp] theorem State.reason_taken_self : ((s.taken p tag n).port p).reason = .none := by
  simp [State.port_taken_self]
@[simp] theorem State.so_taken_self :
    ((s.taken p tag n).port p).so = repeatBits (s.port p).statusByte 0 n := by simp [State.port_taken_self]
@[simp] theorem State.slot_taken_self : ((s.taken p tag n).port p).slot = .working (.request tag) := by
  simp [State.port_taken_self]

/-! What the tables answer does not depend on the frame being taken. -/
@[simp] theorem State.viewEntry_taken (h : HandleId) : (s.taken p tag n).viewEntry q h = s.viewEntry q h := by
  simp [State.viewEntry]
@[simp] theorem State.bound_taken : (s.taken p tag n).bound q t = s.bound q t := by simp [State.bound]
@[simp] theorem State.rightsOf_taken : (s.taken p tag n).rightsOf q t = s.rightsOf q t := rfl
@[simp] theorem State.owed_taken : (s.taken p tag n).owed t = s.owed t := rfl
@[simp] theorem State.watchers_taken : (s.taken p tag n).watchers t = s.watchers t := by simp [State.watchers]
@[simp] theorem State.membersOf_taken : (s.taken p tag n).membersOf g = s.membersOf g := rfl
@[simp] theorem State.readersOf_taken (l : List TallyId) : (s.taken p tag n).readersOf l = s.readersOf l := by
  simp [State.readersOf]
@[simp] theorem State.admission_taken (m : Nat) : (s.taken p tag n).admission g m = s.admission g m := rfl
@[simp] theorem State.findRecord_taken (i : Interval) : (s.taken p tag n).findRecord g i = s.findRecord g i := rfl

/-- How many bits a frame's transaction clocks. -/
abbrev frameBits (pl : List Byte) : Nat := 8 * (5 + pl.length)

/-- A frame on a port that can take it is run on the state with the frame taken (R154, R157). -/
theorem State.requestTransaction_taken (code : Byte) (pl : List Byte) (run : State → Frame → State)
    (h : s.canTake p) (hl : pl.length ≤ 120) :
    s.requestTransaction p ⟨tag, code, pl⟩ run = run (s.taken p tag (frameBits pl)) ⟨tag, code, pl⟩ := by
  obtain ⟨h1, h2, h3, h4⟩ := h
  have hw : wholeFrame ⟨tag, code, pl⟩ = .ok ⟨tag, code, pl⟩ := by
    simp [wholeFrame, payloadFits, Config.maxPayload, hl]
  have hb : 8 * (1 + (Frame.bytes ⟨tag, code, pl⟩).length) = frameBits pl := by
    simp [Frame.bytes, Frame.covered]; omega
  simp only [State.requestTransaction, h1, h3, hw, hb, State.endFrame, State.driveSo, State.port_setPort_self,
    Port.driveAlert_prst, Port.driveAlert_slot, h2, h4, if_true, if_false, Bool.false_eq_true, State.takeFrame,
    State.setPort_setPort, State.taken]
  rfl

/-- A request of an ONLINE port with a payload of its length goes to the owning block (R157, step 4). -/
theorem State.request_served (r : Req) (pl : List Byte) (act : State → PortId → Byte → List Byte → Reply)
    (h : s.serves p) (hl : pl.length ≤ 120) (ha : accepts r pl = true) :
    s.request p tag r pl act = match act (s.taken p tag (frameBits pl)) p tag pl with
      | (s', some a) => s'.respond p tag a
      | (s', none) => s' := by
  rw [State.request, s.requestTransaction_taken p tag (reqCode r) pl _ h.1 hl]
  simp only [State.examine, State.session_taken, h.2, ha]
  rcases act (s.taken p tag (frameBits pl)) p tag pl with ⟨s', _ | a⟩ <;> simp

/-! ## Clocking bits -/

theorem bitsByte_byteBits (b : Byte) : bitsByte (byteBits b) = b := by
  revert b; decide +kernel

@[simp] theorem length_byteBits (b : Byte) : (byteBits b).length = 8 := by simp [byteBits]

section Clock

variable {s p} {first : Byte} {settled : Option Response} {rx si : List Bool} {rises : Bool}

/-- Bits that do not complete the type byte change the link state and SOn alone (R151). -/
theorem State.clock_short (h : (s.port p).link = .typing first settled rx) (hl : (rx ++ si).length < 8) :
    s.clock p si rises =
      s.clockTyping p first rx (if rises then .idle else .typing first settled (rx ++ si)) si.length := by
  simp only [State.clock, h, if_pos hl]

/-- Bits that complete the type byte: the bits after it are clocked as the type requires (R151). -/
theorem State.clock_complete (h : (s.port p).link = .typing first settled rx) (hl : 8 ≤ (rx ++ si).length) :
    s.clock p si rises =
      (s.clockTyping p first rx (.ofType (bitsByte ((rx ++ si).take 8)) first settled) (8 - rx.length)).clockTyped p
        ((rx ++ si).drop 8) rises := by
  simp only [State.clock, h, if_neg (Nat.not_lt.2 hl)]

/-- On a transaction whose type is known all bits are clocked as it requires. -/
theorem State.clock_typed (h : ∀ first settled rx, (s.port p).link ≠ .typing first settled rx) :
    s.clock p si rises = s.clockTyped p si rises := by
  unfold State.clock
  split
  · exact absurd ‹_› (h _ _ _)
  · rfl

/-- A transaction from its select fall: the status byte goes out while the type byte `ty` goes in, and then
the bits `si` are clocked as the type requires (R151, R152). -/
theorem State.transact_idle (hr : s.resetPin = false) (h : (s.port p).link = .idle) (ty : Byte) :
    s.transact p (byteBits ty ++ si) rises =
      (s.setPort p { s.port p with
        so := repeatBits (s.port p).statusByte 0 8
        link := .ofType ty (s.port p).statusByte (s.port p).slot.settled }).clockTyped p si rises := by
  have hl : ((s.selectFall p).port p).link = .typing (s.port p).statusByte (s.port p).slot.settled [] := by
    simp [State.selectFall]
  have ht : (byteBits ty ++ si).take 8 = byteBits ty := List.take_left' (by simp)
  have hd : (byteBits ty ++ si).drop 8 = si := List.drop_left' (by simp)
  simp only [State.transact, hr, h, Bool.false_eq_true, if_false, if_true]
  rw [State.clock_complete hl (by simp), List.nil_append, ht, hd, bitsByte_byteBits]
  simp only [State.clockTyping, State.selectFall, State.setPort_setPort, State.port_setPort_self]
  exact congrArg (fun x : Port => ({ s with ports := s.ports.set p x } : State).clockTyped p si rises)
    (Port.driveAlert_congr rfl)

end Clock

/-! ## Answers -/

variable (a : Answer)

@[simp] theorem State.tally_respond : (s.respond p tag a).tally t = s.tally t := rfl
@[simp] theorem State.group_respond : (s.respond p tag a).group g = s.group g := rfl
@[simp] theorem State.ring_respond : (s.respond p tag a).ring g = s.ring g := rfl
@[simp] theorem State.freeCells_respond : (s.respond p tag a).freeCells = s.freeCells := rfl
@[simp] theorem State.pointer_respond : (s.respond p tag a).pointer = s.pointer := rfl
@[simp] theorem State.resetPin_respond : (s.respond p tag a).resetPin = s.resetPin := rfl
@[simp] theorem State.draws_respond : (s.respond p tag a).draws = s.draws := rfl
@[simp] theorem State.pending_respond : (s.respond p tag a).pending = s.pending := rfl
@[simp] theorem State.port_respond_ne (h : q ≠ p) : (s.respond p tag a).port q = s.port q := by
  simp [State.respond, h]
theorem State.port_respond_self : (s.respond p tag a).port p = ({ s.port p with
    slot := .ready ⟨tag, a.status, (s.port p).number, a.payload⟩ } : Port).driveAlert := by simp [State.respond]

/-- What an answer leaves of its port. -/
theorem State.respond_port : ((s.respond p tag a).port q).session = (s.port q).session ∧
    ((s.respond p tag a).port q).number = (s.port q).number ∧
    ((s.respond p tag a).port q).sessionEnd = (s.port q).sessionEnd ∧
    ((s.respond p tag a).port q).link = (s.port q).link ∧ ((s.respond p tag a).port q).prst = (s.port q).prst ∧
    ((s.respond p tag a).port q).reason = (s.port q).reason ∧ ((s.respond p tag a).port q).so = (s.port q).so ∧
    ((s.respond p tag a).port q).view = (s.port q).view ∧ ((s.respond p tag a).port q).fifo = (s.port q).fifo ∧
    ((s.respond p tag a).port q).events = (s.port q).events ∧
    ((s.respond p tag a).port q).posting = (s.port q).posting := by
  by_cases h : q = p
  · subst h; simp [State.port_respond_self]
  · simp [h]

@[simp] theorem State.session_respond : ((s.respond p tag a).port q).session = (s.port q).session :=
  (s.respond_port p q tag a).1
@[simp] theorem State.number_respond : ((s.respond p tag a).port q).number = (s.port q).number :=
  (s.respond_port p q tag a).2.1
@[simp] theorem State.sessionEnd_respond : ((s.respond p tag a).port q).sessionEnd = (s.port q).sessionEnd :=
  (s.respond_port p q tag a).2.2.1
@[simp] theorem State.link_respond : ((s.respond p tag a).port q).link = (s.port q).link :=
  (s.respond_port p q tag a).2.2.2.1
@[simp] theorem State.prst_respond : ((s.respond p tag a).port q).prst = (s.port q).prst :=
  (s.respond_port p q tag a).2.2.2.2.1
@[simp] theorem State.reason_respond : ((s.respond p tag a).port q).reason = (s.port q).reason :=
  (s.respond_port p q tag a).2.2.2.2.2.1
@[simp] theorem State.so_respond : ((s.respond p tag a).port q).so = (s.port q).so :=
  (s.respond_port p q tag a).2.2.2.2.2.2.1
@[simp] theorem State.view_respond : ((s.respond p tag a).port q).view = (s.port q).view :=
  (s.respond_port p q tag a).2.2.2.2.2.2.2.1
@[simp] theorem State.fifo_respond : ((s.respond p tag a).port q).fifo = (s.port q).fifo :=
  (s.respond_port p q tag a).2.2.2.2.2.2.2.2.1
@[simp] theorem State.events_respond : ((s.respond p tag a).port q).events = (s.port q).events :=
  (s.respond_port p q tag a).2.2.2.2.2.2.2.2.2.1
@[simp] theorem State.posting_respond : ((s.respond p tag a).port q).posting = (s.port q).posting :=
  (s.respond_port p q tag a).2.2.2.2.2.2.2.2.2.2
@[simp] theorem State.slot_respond_self : ((s.respond p tag a).port p).slot =
    .ready ⟨tag, a.status, (s.port p).number, a.payload⟩ := by simp [State.port_respond_self]
@[simp] theorem State.viewEntry_respond (h : HandleId) :
    (s.respond p tag a).viewEntry q h = s.viewEntry q h := by simp [State.viewEntry]

/-- An answer on the state with the frame taken changes nothing else. -/
theorem State.onlyAnswered_taken :
    s.onlyAnswered ((s.taken p tag n).respond p tag a) p tag a.status a.payload := by
  refine ⟨⟨by simp, by simp⟩, ?_, fun q h => by simp [h], ?_⟩
  · simp [Port.sameButAnswer, Port.sameEngine, Port.sameTables]
  · simp [State.sameBehindPorts, State.sameTallies, State.sameGroups, State.sameStore, State.sameRest]

end Sys2Proof.Machine
end

