-- ==== Sys2Proof/Laws/Operands.lean ====
section
/-! SUPPORT. Reading back the fields a payload is written from (R168). -/

namespace Sys2Proof.Machine

@[simp] theorem beBytes_length (n x : Nat) : (beBytes n x).length = n := by
  induction n with
  | zero => rfl
  | succ n ih => simp [beBytes, ih]

@[simp] theorem byteOf_toNat {n : Nat} (h : n < 256) : (byteOf n).toNat = n := by
  simp [byteOf, Nat.mod_eq_of_lt h]

@[simp] theorem indexBelow_val {n : Nat} (i : Fin n) : indexBelow n i.val = some i := by
  simp [indexBelow, i.isLt]

@[simp] theorem readHandle_handleByte (h : HandleId) : readHandle (handleByte h) = some h := by
  have : h.val < 256 := by omega
  simp [readHandle, handleByte, byteOf_toNat this]

@[simp] theorem readPort_byteOf (p : PortId) : readPort (byteOf p.val) = some p := by
  have : p.val < 256 := by omega
  simp [readPort, byteOf_toNat this]

@[simp] theorem readGroup_byteOf (g : GroupId) : readGroup (byteOf g.val) = some g := by
  have : g.val < 256 := by omega
  simp [readGroup, byteOf_toNat this]

@[simp] theorem readGroup_groupByte (g : GroupId) : readGroup (groupByte g) = some g := readGroup_byteOf g

@[simp] theorem readTally_byteOf (t : TallyId) : readTally (byteOf t.val) = t := by
  apply Fin.ext
  simp [readTally, byteOf]

@[simp] theorem readKind_code (k : Kind) : readKind k.code = some k := by cases k <;> rfl
@[simp] theorem readPolicy_code (k : OverflowPolicy) : readPolicy k.code = some k := by cases k <;> rfl
@[simp] theorem readRingPolicy_code (k : RingPolicy) : readRingPolicy k.code = some k := by cases k <;> rfl
@[simp] theorem readBool_boolByte (b : Bool) : readBool (boolByte b) = some b := by cases b <;> rfl
@[simp] theorem readSide_code (d : Side) : readSide d.code = some d := by cases d <;> rfl

@[simp] theorem readRights_code (r : Rights) : readRights r.code = some r := by
  obtain ⟨a, b, c, d⟩ := r
  cases a <;> cases b <;> cases c <;> cases d <;> decide

@[simp] theorem readMask_code (m : Mask) : readMask m.code = some m := by
  obtain ⟨a, b, c⟩ := m
  cases a <;> cases b <;> cases c <;> decide

/-- A sign byte and a magnitude stand for the number the manual says (R73). -/
theorem readSigned_boolByte (b : Bool) (m : Nat) : readSigned (boolByte b) m = some (signedValue b m) := by
  cases b <;> rfl

/-- The fold that reads bytes starts from any number. -/
theorem foldl_be (l : List Byte) (a : Nat) :
    l.foldl (fun n (b : Byte) => 256 * n + b.toNat) a = a * 256 ^ l.length + beNat l := by
  induction l generalizing a with
  | nil => simp [beNat]
  | cons b l ih =>
    simp only [List.foldl_cons, beNat, List.length_cons] at ih ⊢
    rw [ih, ih (256 * 0 + b.toNat)]
    ring

theorem beNat_cons (b : Byte) (l : List Byte) : beNat (b :: l) = b.toNat * 256 ^ l.length + beNat l := by
  show List.foldl _ _ _ = _
  rw [List.foldl_cons, foldl_be]
  simp

/-- Bytes written from a number read back as the number. -/
theorem beNat_beBytes (n x : Nat) (h : x < 256 ^ n) : beNat (beBytes n x) = x := by
  suffices ∀ y, beNat (beBytes n y) = y % 256 ^ n by rw [this, Nat.mod_eq_of_lt h]
  intro y
  induction n generalizing x with
  | zero => simp [beBytes, beNat, Nat.mod_one]
  | succ n ih =>
    rw [beBytes, beNat_cons, beBytes_length]
    have hi : beNat (beBytes n y) = y % 256 ^ n := ih 0 (by positivity)
    have h1 : (BitVec.ofNat 8 (y / 256 ^ n)).toNat = y / 256 ^ n % 256 := by simp
    rw [hi, h1, Nat.pow_succ, Nat.mod_mul]
    ring

theorem beNat_lt (l : List Byte) : beNat l < 256 ^ l.length := by
  induction l with
  | nil => simp [beNat]
  | cons b l ih =>
    rw [beNat_cons, List.length_cons, Nat.pow_succ]
    have := b.isLt
    nlinarith

/-- A field of `n` bytes is a number below 256^n. -/
theorem fieldAt_lt (pl : List Byte) (i n : Nat) : fieldAt pl i n < 256 ^ n := by
  refine lt_of_lt_of_le (beNat_lt _) (Nat.pow_le_pow_right (by omega) ?_)
  simp

/-- The field at the place where it was written. -/
theorem fieldAt_append (before after : List Byte) (n x : Nat) (h : x < 256 ^ n) :
    fieldAt (before ++ (beBytes n x ++ after)) before.length n = x := by
  simp [fieldAt, beNat_beBytes n x h]

end Sys2Proof.Machine
end

