-- ==== Sys2Proof/Tests/Slice0.lean ====
section
/-! SUPPORT. Tests of the model on small states, and for every obligation with hypotheses a witness that
meets them together. Expected values come from the spec's worked examples and from hand calculation by its
rules; each test names its source. -/

namespace Sys2Proof.Tests

set_option Elab.async false

open Sys2Proof Sys2Proof.Machine

/-! ## WellFormed: one ill-formed term for each check -/

theorem test_wellFormed_refuses_a_known_type : (Instr.unknownType 0 0xA5 8 true).wellFormed = false := by decide

theorem test_wellFormed_takes_an_unknown_type : (Instr.unknownType 0 0xFF 8 true).wellFormed = true := by decide

theorem test_wellFormed_refuses_a_known_code : (Instr.unknownRequest 0 7 0x1B []).wellFormed = false := by decide

theorem test_wellFormed_refuses_a_long_unknown_request :
    (Instr.unknownRequest 0 7 0x1C (List.replicate 121 0)).wellFormed = false := by decide

theorem test_wellFormed_refuses_a_long_payload :
    (Instr.read 0 7 (List.replicate 121 0)).wellFormed = false := by decide

theorem test_wellFormed_refuses_a_frame_in_an_entry : (Instr.post 0 7 [1] .entry).wellFormed = false := by decide

theorem test_wellFormed_refuses_a_whole_type_byte :
    (Instr.transactionWithoutType 0 ⟨List.replicate 8 true, true⟩).wellFormed = false := by decide

/-! ## The small states of the tests -/

/-- The state a command leads to. -/
def after (c : Instr) (s : State) : State :=
  match exec c s with
  | .next t => t
  | .fault _ => s
  | .refused _ => s

/-- A LIVE tally of G0, administered by P0, that P0 may use in every way and P1 post to, read and watch. -/
def tallyOf (k : Kind) (v : Option Int) (bound : Nat) : Tally :=
  { Tally.cleared with
    state := .live, kind := k, value := v, admin := some 0, bindCount := bound
    rights := ((Vector.replicate 4 Rights.none).set 0 Rights.all).set 1 ⟨true, true, false, true⟩ }

/-- An ONLINE port with session number 1. -/
def onlinePort : Port := { Port.atReset with session := .online, number := 1 }

/-- P0's view: H0 names T0 with weight 10, H1 names T1 with weight 1000, H2 names T2 with weight 1. -/
def view0 : Vector (Option ViewEntry) 64 :=
  (((Vector.replicate 64 none).set 0 (some ⟨0, 10⟩)).set 1 (some ⟨1, 1000⟩)).set 2 (some ⟨2, 1⟩)

/-- P1's view: H0 names T0 with weight 5. -/
def view1 : Vector (Option ViewEntry) 64 := (Vector.replicate 64 none).set 0 (some ⟨0, 5⟩)

/-- P0 and P1 are ONLINE; T0 is SUM_U at 5, T1 SUM_S at 7 with policy FREEZE, T2 an absent PEAK; P0
administers them and G0. -/
def work : State :=
  ((((((State.reset.setPort 0 { onlinePort with view := view0 }).setPort 1 { onlinePort with view := view1 }).setTally
    0 (tallyOf .sumU (some 5) 2)).setTally 1 { tallyOf .sumS (some 7) 1 with policy := .freeze }).setTally
    2 (tallyOf .peak none 1)).setGroup 0 { Group.atReset with admin := some 0 })

/-- `work` with port 0 changed. -/
def work0 (f : Port → Port) : State := work.setPort 0 (f (work.port 0))

/-- A record of the closed interval 0 of G0 with the three tallies as members. -/
def recordOf (st : RecordState) (cells : List (Option SnapCell)) (readers : List PortId) : SnapRecord :=
  ⟨0, 0, st, .manual, 0, [0, 1, 2], cells, readers, false⟩

/-- G0 is CLOSING and every member is still owed; P0 and P1 are the readers. -/
def closing : State :=
  { ((work.setGroup 0 { Group.atReset with admin := some 0, state := .closing, interval := 1 }).setRing 0
      [recordOf .filling [none, none, none] [0, 1]]) with freeCells := 1021 }

/-- Three copied cells. -/
def copiedCells : List (Option SnapCell) := [some ⟨some 5, 2, false, false⟩, some ⟨some 7, 1, false, false⟩, some ⟨none, 0, false, false⟩]

/-- The close of `closing` has ended: the record is READY. -/
def closed : State :=
  { ((((((work.setTally 0 { tallyOf .sumU (some 5) 2 with tag := 1 }).setTally
      1 { tallyOf .sumS (some 7) 1 with tag := 1 }).setTally 2 { tallyOf .peak none 1 with tag := 1 }).setGroup
      0 { Group.atReset with admin := some 0, interval := 1 }).setRing 0 [recordOf .ready copiedCells [0, 1]])) with
    freeCells := 1021 }

/-- The payload of the response that stands READY on a port. -/
def answer (s : State) (p : PortId) : Option (Status × List Byte) :=
  match (s.port p).slot with
  | .ready r => some (r.status, r.payload)
  | _ => none

/-! ## The link -/

/-- Section 10.5: the register after each byte of the HELLO header. -/
theorem test_check_byte_of_hello :
    crcByte 0xFF 0x01 = 0xF4 ∧ crcByte 0xF4 0x01 = 0xC5 ∧ crcByte 0xC5 0x00 = 0x55 := by decide +kernel

/-- Section 10.5: the HELLO frame after its type byte. -/
theorem test_hello_frame : Frame.bytes ⟨0x01, 0x01, []⟩ = [0x01, 0x01, 0x00, 0x55] := by decide +kernel

/-- Section 10.1: CHECK latched beside an EMPTY slot of an ONLINE port is 24H; READY with an event waiting is
B0H; an OFFLINE port after RESET# is 00H. -/
theorem test_status_byte_examples :
    (Port.statusByte { onlinePort with reason := .check }) = 0x24 ∧
    (Port.statusByte { onlinePort with slot := .ready ⟨0, .ok, 1, []⟩, alert := true }) = 0xB0 ∧
    Port.atReset.statusByte = 0x00 := by decide +kernel

/-- Section 9.9, row 1: an ONLINE port with an EMPTY slot reports 20H and keeps reporting it. -/
theorem test_status : ((after (.status 0 8 true) work).port 0).so = bytesBits [0x20, 0x20] := by decide +kernel

/-- Section 9.9: a FETCH of a READY response of 5 bytes and no payload, 5 bytes clocked after the type byte,
empties the slot; one bit fewer keeps it. -/
theorem test_fetch_empties_only_when_complete :
    let s := work0 fun x => { x with slot := .ready ⟨0x21, .ok, 1, []⟩ }
    ((after (.fetch 0 40 true) s).port 0).slot = .empty ∧
    ((after (.fetch 0 39 true) s).port 0).slot = .ready ⟨0x21, .ok, 1, []⟩ := by decide +kernel

/-- Section 10.1: a FETCH of an EMPTY slot shifts out FFH, FFH and filler. -/
theorem test_fetch_marker :
    ((after (.fetch 0 24 true) work).port 0).so = bytesBits [0x20, 0xFF, 0xFF, 0x00] := by decide +kernel

/-- R151, R167: an unknown type latches TYPE and shifts out filler. -/
theorem test_unknown_type :
    let s := after (.unknownType 0 0xFF 8 true) work
    (s.port 0).reason = .type ∧ (s.port 0).so = bytesBits [0x20, 0x00] := by decide +kernel

/-- Section 10.5: the HELLO frame with check byte 54H fails CHECK. -/
theorem test_frame_with_a_wrong_check :
    ((after (.frameRefused 0 (bytesBits [0x01, 0x01, 0x00, 0x54]) true) State.reset).port 0).reason = .check := by
  decide +kernel

/-- Section 10.5 and R162: the HELLO frame, bit by bit, opens session 1. -/
theorem test_frame_bits_open_a_session :
    let x := (after (.frameRefused 0 (bytesBits [0x01, 0x01, 0x00, 0x55]) true) State.reset).port 0
    x.session = .online ∧ x.number = 1 ∧ x.reason = .none := by decide +kernel

/-- R155: the end of an abandoned transaction under PRSTn# shifts out filler and takes nothing. -/
theorem test_abandoned_transaction_end :
    let x := (after (.abandonedTransactionEnd 0 3)
      (work0 fun x => { x with link := .abandoned, prst := true })).port 0
    x.link = .idle ∧ x.so = [false, false, false] ∧ x.slot = .empty := by decide +kernel

/-- R151: seven bits carry no type; nothing is latched. -/
theorem test_transaction_without_type :
    let x := (after (.transactionWithoutType 0 ⟨[true, true, true, true, true, true, true], true⟩) work).port 0
    x.reason = .none ∧ x.slot = .empty ∧ x.link = .idle := by decide +kernel

/-- R151, R155, R167: PRSTn# falls after three bits of a type byte; the rest carries filler, after PRSTn#'s
release too. -/
theorem test_abandoned_within_the_type_byte :
    let s := after (.transactionWithoutType 0 ⟨[false, true, false], false⟩) work
    let x := (after (.abandonedTransactionEnd 0 5) (after (.prstRelease 0) (after (.prstAssert 0) s))).port 0
    x.so = [false, false, true, false, false, false, false, false] ∧ x.link = .idle ∧ x.reason = .none := by
  decide +kernel

/-- R157: code 1CH names no request. -/
theorem test_unknown_request : answer (after (.unknownRequest 0 9 0x1C []) work) 0 = some (.unknown, []) := by
  decide +kernel

/-! ## Sessions -/

/-- R162, R170: the identification. -/
theorem test_hello :
    answer (after (.hello 3 9 ⟨[], true⟩) State.reset) 3 =
      some (.ok, [0x0A, 0x42, 0x01, 0x01, 4, 0x01, 0x00, 8, 64, 8, 16, 0x04, 0x00]) := by decide +kernel

/-- R165: PRSTn# abandons a HELLO that has not opened its session. -/
theorem test_hello_abandoned :
    let s := after (.hello 3 9 ⟨[], false⟩) State.reset
    let x := (after (.helloOpenSession 3) (after (.prstAssert 3) s)).port 3
    (s.port 3).slot = .working (.hello 9) ∧ x.slot = .empty ∧ x.session = .offline ∧ x.number = 0 := by
  decide +kernel

/-- R157: any other request of an OFFLINE port is answered OFFLINE. -/
theorem test_offline : answer (after (.leave 3 9 []) State.reset) 3 = some (.offline, []) := by decide +kernel

/-- R163, R164: LEAVE begins the session end and holds the slot. -/
theorem test_leave :
    let x := (after (.leave 0 9 []) work).port 0
    x.slot = .working (.leave 9) ∧ x.sessionEnd = some .views ∧ x.session = .online := by decide +kernel

/-- R162: the session after the session end that HELLO began; number 255 is followed by 0 (R161). -/
theorem test_hello_open_session :
    let x := (after (.helloOpenSession 0)
      (State.reset.setPort 0 { Port.atReset with number := 255, slot := .working (.hello 9) })).port 0
    x.session = .online ∧ x.number = 0 := by decide +kernel

/-- R37: step 1 lowers the bind counts of the tallies that P0 named. -/
theorem test_session_end_views :
    let s := after (.sessionEndViews 0) (work0 fun x => { x with slot := .working .portReset, sessionEnd := some .views })
    s.viewEntry 0 1 = none ∧ (s.tally 0).bindCount = 1 ∧ (s.tally 1).bindCount = 0 := by decide +kernel

/-- R119: step 2 leaves P1 alone as the reader; the record stays. -/
theorem test_session_end_readers :
    let s := after (.sessionEndReaders 0)
      (closed.setPort 0 { closed.port 0 with slot := .working .portReset, sessionEnd := some .readers })
    (s.ring 0).map SnapRecord.readers = [[1]] ∧ s.freeCells = 1021 := by decide +kernel

/-- R23: step 3 vacates T0 and tells P1, which is bound to it. -/
theorem test_session_end_tally_admin :
    let s := after (.sessionEndTallyAdmin 0)
      (((work.setTally 1 { tallyOf .sumS (some 7) 1 with admin := none }).setTally
          2 { tallyOf .peak none 1 with admin := none }).setPort 0
        { work.port 0 with slot := .working .portReset, sessionEnd := some .tallyAdmin })
    (s.tally 0).admin = none ∧ ⟨.adminVacant, .tally 0, .port 0, 1⟩ ∈ (s.port 1).events.queue ∧
      (s.port 0).events.queue = [] := by decide +kernel

/-- R100: step 4 vacates G0 and tells P1, which is bound to a member. -/
theorem test_session_end_group_admin :
    let s := after (.sessionEndGroupAdmin 0)
      (work0 fun x => { x with slot := .working .portReset, sessionEnd := some .groupAdmin })
    (s.group 0).admin = none ∧ (s.port 1).events.queue = [⟨.adminVacant, .group 0, .port 0, 1⟩] := by
  decide +kernel

/-- R147, R163: step 5 of LEAVE's session end. -/
theorem test_session_end_events :
    let s := after (.sessionEndEvents 0) (work0 fun x => { x with
      slot := .working (.leave 9), sessionEnd := some .events
      events := ⟨[⟨.snapshotReady, .group 0, .interval 3, 1⟩], some 2, ⟨true, false, false⟩, []⟩ })
    (s.port 0).events = EventBlock.empty ∧ (s.port 0).session = .offline ∧ answer s 0 = some (.ok, []) := by
  decide +kernel

/-! ## Events -/

/-- The queue of section 8.7 before P1's first TAKE_EVENT. -/
def queue87 : EventBlock :=
  ⟨[⟨.limitReached, .tally 50, .side .upper, 1⟩, ⟨.snapshotReady, .group 2, .interval 14, 1⟩], none, Mask.empty, []⟩

/-- Section 8.7, row 4: OK, SNAPSHOT_READY G2 14, merge count 1, 1 queued, no marker, depth 1. -/
theorem test_take_event :
    let s := after (.takeEvent 0 9 []) (work0 fun x => { x with events := queue87 })
    (s.port 0).events.queue = [⟨.limitReached, .tally 50, .side .upper, 1⟩] ∧ (s.port 0).alert = false ∧
      ((answer s 0).map fun a => a.2.drop 8) = some [1, 1, 0, 1] := by decide +kernel

/-- Section 8.7: with the INTERVAL event acknowledged under a mask of FAULT, the NOTICE entries become
deliverable. -/
theorem test_ack_event :
    let s := after (.ackEvent 0 9 []) (work0 fun x => { x with
      events := ⟨[⟨.limitReached, .tally 50, .side .upper, 1⟩], none, ⟨true, false, false⟩,
        [⟨.snapshotReady, .group 2, .interval 14, 1⟩]⟩ })
    (s.port 0).events.stack = [] ∧ (s.port 0).alert = true := by decide +kernel

/-- Section 8.7: SET_MASK of FAULT releases the line while a FAULT alone waits. -/
theorem test_set_mask :
    let s := after (.setMask 0 9 [0x01]) (work0 fun x => { x with
      events := ⟨[⟨.contribRefused, .tally 9, .refused .frozen, 1⟩], none, Mask.empty, []⟩ })
    (s.port 0).alert = false ∧ answer s 0 = some (.ok, [0, 1, 1, 0, 0]) := by decide +kernel

/-- R138: the example of P2's queue, its first posting. -/
theorem test_posting_merges :
    (EventBlock.post ⟨[⟨.contribRefused, .tally 9, .refused .frozen, 1⟩, ⟨.snapshotReady, .group 1, .interval 40, 1⟩],
        none, Mask.empty, []⟩ .contribRefused (.tally 9) (.refused .negative)).queue =
      [⟨.contribRefused, .tally 9, .refused .negative, 2⟩, ⟨.snapshotReady, .group 1, .interval 40, 1⟩] := by
  decide +kernel

/-! ## Tally administration -/

/-- R16: the lowest-numbered FREE tally of `work` is T3; its PEAK value is absent. -/
theorem test_define :
    let s := after (.define 1 9 [2, 5, 0, 1]) work
    answer s 1 = some (.ok, [3, 0, 0, 0, 0]) ∧ (s.tally 3).value = none ∧ (s.tally 3).admin = some 1 ∧
      (s.tally 3).resetOnClose = true := by decide +kernel

/-- R17: T0 has another binding, so IN_USE; T1 is retired. -/
theorem test_retire :
    answer (after (.retire 0 9 [0]) work) 0 = some (.inUse, []) ∧
      ((after (.retire 0 9 [1]) work).tally 1) = Tally.cleared := by decide +kernel

/-- R19: POST and WATCH leave P1's rights on T0, READ and DRAW stay or come; before and after are answered. -/
theorem test_grant :
    let s := after (.grant 0 9 [0, 1, 0x06]) work
    answer s 0 = some (.ok, [0x0B, 0x06]) ∧ (s.tally 0).rights[1] = ⟨false, true, true, false⟩ := by decide +kernel

/-- R15, R20: FREEZE by the administrator; P1 is NOT_ADMIN. -/
theorem test_freeze :
    ((after (.freeze 0 9 [0]) work).tally 0).state = .frozen ∧
      answer (after (.freeze 1 9 [0]) work) 1 = some (.notAdmin, []) := by decide +kernel

/-- R21: RESUME keeps the overflow flag. -/
theorem test_resume :
    let x := (after (.resume 0 9 [0])
      (work.setTally 0 { tallyOf .sumU (some 5) 2 with state := .frozen, overflow := true })).tally 0
    x.state = .live ∧ x.overflow = true := by decide +kernel

/-- R22: NOT_VACANT while P0 holds the role, then OK. -/
theorem test_claim_tally :
    answer (after (.claimTally 1 9 [0]) work) 1 = some (.notVacant, []) ∧
      ((after (.claimTally 1 9 [0]) (work.setTally 0 { tallyOf .sumU (some 5) 2 with admin := none })).tally 0).admin
        = some 1 := by decide +kernel

/-- Section 7.6, row 2: a lower limit of -500 with hysteresis 50 is set ARMED at value 7. -/
theorem test_set_limit :
    ((after (.setLimit 0 9 ([1, 1, 0, 1] ++ beBytes 8 500 ++ beBytes 4 50)) work).tally 1).lower =
      some ⟨-500, 50, .armed⟩ := by decide +kernel

/-! ## Views -/

/-- R28: P1's H1 is bound to T2 with weight 65535; the bind count rises to 2. -/
theorem test_bind :
    let s := after (.bind 1 9 [1, 2, 0xFF, 0xFF]) work
    answer s 1 = some (.ok, [1, 2, 2, 0, 0x0B, 2]) ∧ s.viewEntry 1 1 = some ⟨2, 65535⟩ := by decide +kernel

/-- R28: a second handle for T0 is answered ALREADY with the first. -/
theorem test_bind_already : answer (after (.bind 1 9 [1, 0, 0, 1]) work) 1 = some (.already, [0, 0]) := by decide +kernel

/-- R30: UNBIND lowers the count to 1. -/
theorem test_unbind :
    let s := after (.unbind 1 9 [0]) work
    answer s 1 = some (.ok, [0, 1]) ∧ s.viewEntry 1 0 = none := by decide +kernel

/-! ## Contributions -/

/-- R44: the example of five entries on a FIFO that holds 6, with P2's handles those of P0 here. -/
theorem test_post :
    let s := (work0 fun x => { x with fifo := List.replicate 6 ⟨2, 1, 1, 0⟩ }).setTally 2
      { tallyOf .peak none 1 with rights := Vector.replicate 4 Rights.none, stagedCount := 6 }
    let t := after (.post 0 9 (postPayload [(0, 5#32), (2, 1#32), (1, BitVec.ofInt 32 (-7)), (0, 2#32), (9, 4#32)]) .whole) s
    answer t 0 = some (.partly,
        [2, Status.code .ok, Status.code .noRight, Status.code .ok, Status.code .full, Status.code .full, 0]) ∧
      (t.port 0).fifo.drop 6 = [⟨0, 10, 5, 0⟩, ⟨1, 1000, -7, 0⟩] := by decide +kernel

/-- R46: a GRANT that removes POST falls between two entries of one POST: the second is NO_RIGHT. -/
theorem test_post_entry_by_entry :
    let s := after (.post 1 9 (postPayload [(0, 5#32), (0, 6#32)]) .taken) work
    let t := after (.grant 0 9 [0, 1, 0]) (after (.post 1 0 [] .entry) s)
    answer s 1 = none ∧ answer t 1 = none ∧ answer (after (.post 1 0 [] .entry) t) 1 =
      some (.partly, [1, Status.code .ok, Status.code .noRight, 7]) := by decide +kernel

/-- R64: DRAIN waits while an entry is staged. -/
theorem test_drain :
    (((after (.drain 0 9 []) (work0 fun x => { x with fifo := [⟨0, 10, 1, 0⟩] })).port 0).slot = .working (.drain 9)) ∧
      answer (after (.drain 0 9 []) work) 0 = some (.ok, []) := by decide +kernel

/-- Section 3.5: a SUM_U tally at 2^64 - 100 takes 30 times 5 and wraps to 50. -/
theorem test_apply_wraps :
    let x := (after .apply ((work.setTally 0 { tallyOf .sumU (some (2 ^ 64 - 100)) 2 with stagedCount := 1 }).setPort 1
      { work.port 1 with fifo := [⟨0, 5, 30, 1⟩] })).tally 0
    x.value = some 50 ∧ x.rollover = 1 ∧ x.token = 1 ∧ x.count = 1 ∧ x.last = some 1 := by decide +kernel

/-- Section 3.5: T21 of the overflow example is refused and frozen, and P1 is told OVERFLOW. -/
theorem test_apply_freezes :
    let s := after .apply (((work.setTally 1
        { tallyOf .sumS (some (2 ^ 63 - 1001)) 1 with policy := .freeze, stagedCount := 1 }).setPort 1
      { work.port 1 with fifo := [⟨1, 1000, 2, 1⟩] }))
    (s.tally 1).value = some (2 ^ 63 - 1001) ∧ (s.tally 1).state = .frozen ∧ (s.tally 1).overflow = true ∧
      (s.port 1).events.queue = [⟨.contribRefused, .tally 1, .refused .overflow, 1⟩] ∧
      (s.port 0).events.queue = [⟨.tallyFrozen, .tally 1, .none, 1⟩] := by decide +kernel

/-! ## Direct access -/

/-- R70, R170: READ of T0 of `work`. -/
theorem test_read :
    answer (after (.read 1 9 [0]) work) 1 = some (.ok,
      [0, 1, 0, 0, 0, 0, 0, 0, 0, 0, 0, 0, 5, 0, 0, 0, 0, 0xFF, 0, 0, 0, 0, 0, 0, 0, 0, 0, 2, 0]) := by decide +kernel

/-- R71: TAKE of an absent PEAK value answers sign 02H and magnitude 0. -/
theorem test_take_absent :
    answer (after (.take 0 9 [2]) work) 0 = some (.ok, [2, 2, 0, 0, 0, 0, 0, 0, 0, 0, 0, 0, 0, 0]) := by decide +kernel

/-- R74: TAKE of 900 clears the upper limit and reaches the lower one. -/
theorem test_take_moves_both_limits :
    let s := after (.take 0 9 [1]) (work.setTally 1 { tallyOf .sumS (some 900) 1 with
      upper := some ⟨800, 200, .tripped⟩, lower := some ⟨100, 50, .armed⟩ })
    (s.tally 1).value = some 0 ∧ (s.port 0).events.queue =
      [⟨.limitCleared, .tally 1, .side .upper, 1⟩, ⟨.limitReached, .tally 1, .side .lower, 1⟩] := by decide +kernel

/-- R73: minus 0 stands for 0, and 7 is not 0: MISMATCH with the value. -/
theorem test_exchange_mismatch :
    answer (after (.exchange 0 9 ([1] ++ signedBytes true 0 ++ signedBytes false 9)) work) 0 =
      some (.mismatch, [0, 0, 0, 0, 0, 0, 0, 0, 7]) := by decide +kernel

/-- R73: 7 is exchanged for -9. -/
theorem test_exchange :
    ((after (.exchange 0 9 ([1] ++ signedBytes false 7 ++ signedBytes true 9)) work).tally 1).value = some (-9) := by
  decide +kernel

/-- Section 4.5: a clear with token 4 is STALE at token 5 and reports rollover 1, rejected 1. -/
theorem test_clear_flags_stale :
    answer (after (.clearFlags 0 9 [0, 4])
      (work.setTally 0 { tallyOf .sumU (some 5) 2 with rollover := 1, rejected := 1, token := 5 })) 0 =
        some (.stale, [5, 0, 1, 1, 0]) := by decide +kernel

/-- Section 4.5: the second clear, with token 5, answers token 6. -/
theorem test_clear_flags :
    let s := after (.clearFlags 0 9 [0, 5])
      (work.setTally 0 { tallyOf .sumU (some 5) 2 with rollover := 1, rejected := 1, token := 5 })
    answer s 0 = some (.ok, [6]) ∧ (s.tally 0).rollover = 0 := by decide +kernel

/-! ## Groups, closes and snapshots -/

/-- R83: a vacant group is claimed. -/
theorem test_claim_group :
    ((after (.claimGroup 1 9 [3]) work).group 3).admin = some 1 ∧
      answer (after (.claimGroup 1 9 [0]) work) 1 = some (.notVacant, []) := by decide +kernel

/-- R84 and the example of R85: period 4 loads the countdown with 4. -/
theorem test_set_group :
    let g := (after (.setGroup 0 9 [0, 0, 4, 1]) work).group 0
    g.period = 4 ∧ g.countdown = 4 ∧ g.policy = .discardOldest := by decide +kernel

/-- R87, R93: an observed CLOSE of three members: ACCEPTED, interval 0, 3 members, snapshot made. -/
theorem test_close :
    let s := after (.close 0 9 [0]) work
    answer s 0 = some (.accepted, [0, 0, 0, 0, 0, 3, 1]) ∧ s.ring 0 = closing.ring 0 ∧ s.freeCells = 1021 ∧
      (s.group 0).state = .closing := by decide +kernel

/-- R87: the same CLOSE while the group is CLOSING. -/
theorem test_close_busy : answer (after (.close 0 9 [0]) closing) 0 = some (.busy, []) := by decide +kernel

/-- R101: the state, the interval number and the filling record of `closing`. -/
theorem test_group_status :
    ((answer (after (.groupStatus 1 9 [0]) closing) 1).map fun a => a.2.take 7) =
      some [0, GroupState.code .closing, 0, 0, 0, 1, 0] := by decide +kernel

/-- R85, the example of G6: an edge at 4 leaves 3. -/
theorem test_tick :
    ((after .tick (work.setGroup 6 { Group.atReset with period := 4, countdown := 4 })).group 6).countdown = 3 := by
  decide +kernel

/-- R86, R92: a timed attempt on a CLOSING group is missed; the administrator is told why. -/
theorem test_timed_close_missed :
    let s := after (.timedCloseAttempt 0) (closing.setGroup 0
      { closing.group 0 with period := 4, countdown := 1, owedEdges := 1 })
    (s.group 0).missed = 1 ∧ (s.group 0).countdown = 4 ∧
      (s.port 0).events.queue = [⟨.closeMissed, .group 0, .missed .closing, 1⟩] := by decide +kernel

/-- R95: the copier at T0: the cell takes 5 and the tag becomes 1. -/
theorem test_copier_step :
    let s := after (.copierStep 0) closing
    (s.tally 0).tag = 1 ∧ (s.ring 0).map SnapRecord.cells = [[some ⟨some 5, 0, false, false⟩, none, none]] ∧
      (s.group 0).walk = 1 := by decide +kernel

/-- R98: the close end makes the record READY and tells both readers. -/
theorem test_close_end :
    let s := after (.closeEnd 0) (closing.setGroup 0 { closing.group 0 with walk := 3 })
    (s.group 0).state = .opened ∧ (s.ring 0).map SnapRecord.state = [.ready] ∧
      (s.port 1).events.queue = [⟨.snapshotReady, .group 0, .interval 0, 1⟩] := by decide +kernel

/-- R114: free cells 03FDH, one READY record of 3 members, the caller a reader, two readers. -/
theorem test_snap_list :
    answer (after (.snapList 1 9 [0]) closed) 1 =
      some (.ok, [0, 0x03, 0xFD, 1, 0, 0, 0, 0, RecordState.code .ready, 0, 3, Cause.code .manual, 0, 1, 2]) := by
  decide +kernel

/-- R115: `first` 3 is not below the member count; a record of another number is NOT_HELD. -/
theorem test_read_snap :
    answer (after (.readSnap 1 9 [0, 0, 0, 0, 0, 3, 8]) closed) 1 = some (.badArg, []) ∧
      answer (after (.readSnap 1 9 [0, 0, 0, 0, 1, 0, 8]) closed) 1 = some (.notHeld, []) := by decide +kernel

/-- R115: from position 2 on one cell is left, T2's absent value. -/
theorem test_read_snap_last_cell :
    answer (after (.readSnap 1 9 [0, 0, 0, 0, 0, 2, 8]) closed) 1 =
      some (.ok, [0, 0, 0, 0, 0, 0, 3, 1, 2, 2, 0, 0, 0, 0, 0, 0, 0, 0, 0, 0, 0, 0, 0, 0]) := by decide +kernel

/-- R117: one of two readers releases; the record stays with one. -/
theorem test_release :
    let s := after (.release 1 9 [0, 0, 0, 0, 0]) closed
    answer s 1 = some (.ok, [0, 0, 0, 0, 0, 1, 0]) ∧ (s.ring 0).map SnapRecord.readers = [[0]] := by decide +kernel

/-! ## Pins -/

/-- R165: PRSTn# discards the response and begins a session end. -/
theorem test_prst_assert :
    let x := (after (.prstAssert 0) (work0 fun x => { x with slot := .ready ⟨9, .ok, 1, []⟩ })).port 0
    x.slot = .working .portReset ∧ x.sessionEnd = some .views := by decide +kernel

/-- R165: PRSTn# released leaves the session end in progress. -/
theorem test_prst_release :
    let x := (after (.prstRelease 0)
      (work0 fun x => { x with prst := true, slot := .working .portReset, sessionEnd := some .views })).port 0
    x.prst = false ∧ x.sessionEnd = some .views := by decide +kernel

/-- R166: RESET# frees every cell and empties every ring. -/
theorem test_reset_assert :
    let s := after .resetAssert closed
    s.freeCells = 1024 ∧ s.ring 0 = [] ∧ (s.tally 0).state = .free ∧ (s.port 0).session = .offline := by decide +kernel

/-- R166: while RESET# is asserted a HELLO has no effect; after its release the port still is OFFLINE. -/
theorem test_reset_release :
    let s := after (.hello 0 9 ⟨[], true⟩) { work with resetPin := true }
    (s.port 0).slot = .empty ∧ (s.port 0).number = 1 ∧ (after .resetRelease s).resetPin = false := by decide +kernel

/-! ## Witnesses: the hypotheses of every obligation, met together -/

/-- The hypotheses of `State.serves`, as a test. -/
def servesTest (s : State) (p : PortId) : Bool :=
  s.resetPin == false && (s.port p).prst == false && decide ((s.port p).link = .idle) &&
    decide ((s.port p).slot = .empty) && decide ((s.port p).session = .online)

theorem serves_of_test {s : State} {p : PortId} (h : servesTest s p = true) : s.serves p := by
  simp only [servesTest, Bool.and_eq_true, beq_iff_eq, decide_eq_true_eq] at h
  exact ⟨⟨h.1.1.1.1, h.1.1.1.2, h.1.1.2, h.1.2⟩, h.2⟩

theorem work_serves0 : work.serves 0 := serves_of_test (by decide +kernel)

theorem work_serves1 : work.serves 1 := serves_of_test (by decide +kernel)

theorem closing_serves0 : closing.serves 0 := serves_of_test (by decide +kernel)

theorem closed_serves0 : closed.serves 0 := serves_of_test (by decide +kernel)

theorem witness_StepRunsTheFrontCommand :
    (work.setPending [.tick, .apply]).pending = .tick :: [.apply] ∧ work.pending = [] := by decide +kernel

theorem witness_DefinedTalliesKeepTheirMake :
    ∃ t, exec (.grant 0 9 [0, 1, 6]) work = .next t ∧ (work.tally 0).state ≠ .free ∧ (t.tally 0).state ≠ .free ∧
      (t.tally 0).rights ≠ (work.tally 0).rights :=
  ⟨_, rfl, by decide +kernel⟩

theorem witness_ResetReturnsEveryBlock :
    ({ work with resetPin := true } : State).resetPin = true ∧ Instr.tick ≠ .resetAssert ∧
      Instr.tick ≠ .resetRelease := by decide +kernel

theorem witness_PortResetBeginsASessionEnd :
    (work.resetPin = false ∧ (work.port 0).prst = false ∧ (work.port 0).session = .online ∧
      (work.port 0).sessionEnd = none) ∧
    ((work.port 2).prst = false ∧ (work.port 2).session = .offline) ∧
    (let s := work0 fun x => { x with sessionEnd := some .events, slot := .working (.leave 9) }
     s.resetPin = false ∧ (s.port 0).prst = false ∧ (s.port 0).session = .online ∧ (s.port 0).sessionEnd ≠ none) ∧
    (let s := work0 fun x => { x with prst := true }
     s.resetPin = false ∧ (s.port 0).prst = true) := by decide +kernel

theorem witness_StatusReportsAndChangesNothing :
    (work.resetPin = false ∧ (work.port 0).AlertFollows ∧ (work.port 0).link = .idle) ∧
    (let s := work0 fun x => { x with link := .status 0x20 1 }
     s.resetPin = false ∧ (s.port 0).AlertFollows ∧ (s.port 0).link = .status 0x20 1) ∧
    (let s := work0 fun x => { x with link := .status 0x20 8 }
     s.resetPin = false ∧ (s.port 0).AlertFollows ∧ (s.port 0).link = .status 0x20 8) := by
  simp only [Port.alertFollows_iff]
  decide +kernel

theorem witness_FetchShiftsTheSettledResponse :
    (let s := work0 fun x => { x with slot := .ready ⟨9, .ok, 1, [3]⟩ }
     s.resetPin = false ∧ (s.port 0).link = .idle ∧ (s.port 0).slot = .ready ⟨9, .ok, 1, [3]⟩) ∧
    (work.resetPin = false ∧ (work.port 0).link = .idle ∧ ∀ r, (work.port 0).slot ≠ .ready r) ∧
    (let s := work0 fun x => { x with slot := .ready ⟨9, .ok, 1, []⟩, link := .fetch (some ⟨9, .ok, 1, []⟩) 32 }
     s.resetPin = false ∧ (s.port 0).link = .fetch (some ⟨9, .ok, 1, []⟩) 32 ∧ 8 * (0 + 5) ≤ 32 + 8 + 0 ∧
        ∃ r', (s.port 0).slot = .ready r') ∧
    (let s := work0 fun x => { x with link := .fetch none 0 }
     s.resetPin = false ∧ (s.port 0).link = .fetch none 0) := by
  refine ⟨by decide +kernel, ⟨by decide +kernel, by decide +kernel, fun r h => ?_⟩,
    ⟨by decide +kernel, by decide +kernel, by decide, ⟨_, rfl⟩⟩, by decide +kernel⟩
  have : (work.port 0).slot = .empty := by decide +kernel
  simp [this] at h

theorem witness_OddTransactionsChangeAtMostTheReason :
    (work.resetPin = false ∧ (work.port 0).link = .idle ∧ typeByteKnown 0xFF = false ∧ typeByteKnown 0x00 = false) ∧
    (List.replicate 7 true).length < 8 ∧
    (let s := work0 fun x => { x with link := .unknown }
     s.resetPin = false ∧ (s.port 0).link = .unknown) ∧
    (let s := work0 fun x => { x with link := .typing 0x20 none [true, false] }
     s.resetPin = false ∧ (s.port 0).link = .typing 0x20 none [true, false] ∧
        ([true, false] ++ List.replicate 5 true).length < 8) ∧
    (let s := work0 fun x => { x with link := .abandoned }
     s.resetPin = false ∧ (s.port 0).link = .abandoned) := by decide +kernel

theorem witness_FramesAreRefusedByTheFirstFailingTest :
    (let s := work0 fun x => { x with prst := true }
     s.resetPin = false ∧ (s.port 0).link = .idle ∧ (s.port 0).prst = true) ∧
    (work.resetPin = false ∧ (work.port 0).link = .idle ∧ (work.port 0).prst = false ∧
      ¬∃ tag code len : Byte, ∃ body : List Byte, ∃ chk : Byte,
        ([] : List Bool) = bytesBits (tag :: code :: len :: (body ++ [chk])) ∧ len.toNat ≤ 120 ∧
          body.length = len.toNat) ∧
    (bytesBits [1, 1, 0, 0x54] = bytesBits (1 :: 1 :: 0 :: ([] ++ [0x54])) ∧ (0 : Byte).toNat ≤ 120 ∧
      ([] : List Byte).length = (0 : Byte).toNat ∧ (0x54 : Byte) ≠ crc8 (1 :: 1 :: 0 :: [])) ∧
    (let s := work0 fun x => { x with slot := .ready ⟨9, .ok, 1, []⟩ }
     s.resetPin = false ∧ (s.port 0).link = .idle ∧ (s.port 0).prst = false ∧
        (0x55 : Byte) = crc8 (1 :: 1 :: 0 :: []) ∧ (s.port 0).slot ≠ .empty) ∧
    (let s := work0 fun x => { x with link := .request 0x20 [], slot := .ready ⟨9, .ok, 1, []⟩ }
     s.resetPin = false ∧ (s.port 0).link = .request 0x20 [] ∧ (s.port 0).prst = false ∧ (s.port 0).slot ≠ .empty ∧
        [] ++ byteBits 0x5A ++ bytesBits [0, 0, crc8 [0x5A, 0, 0]] =
          bytesBits (0x5A :: 0 :: 0 :: ([] ++ [crc8 [0x5A, 0, 0]]))) := by
  refine ⟨by decide +kernel, ⟨by decide +kernel, by decide +kernel, by decide +kernel, ?_⟩, by decide +kernel,
    by decide +kernel, by decide +kernel⟩
  rintro ⟨tag, code, len, body, chk, h, -⟩
  simp [bytesBits, byteBits] at h

theorem witness_FrameBitsRunTheirRequest :
    ([] : List Byte).length ≤ 120 ∧ (List.replicate 120 (0 : Byte)).length ≤ 120 ∧
    (work.resetPin = false ∧ (work.port 0).link = .idle ∧
      [false, false] ++ (bytesBits (Frame.bytes ⟨9, reqCode .leave, []⟩)).drop 2 =
        bytesBits (Frame.bytes ⟨9, reqCode .leave, []⟩)) := by decide +kernel

theorem witness_EngineAnswersFirst :
    (work.canTake 0 ∧ requestCodeKnown 0x00 = false ∧ requestCodeKnown 0x1C = false) ∧
    (work.canTake 2 ∧ carriesRequest (.drain 2 9 []) .drain 2 9 [] ∧ (work.port 2).session = .offline ∧
      Req.drain ≠ .hello) ∧
    (carriesRequest (.drain 0 9 [0]) .drain 0 9 [0] ∧ (work.port 0).session = .online ∧ accepts .drain [0] = false) ∧
    (carriesRequest (.read 0 9 [64]) .read 0 9 [64] ∧ accepts .read [64] = true ∧ ¬fieldsInRange .read [64]) ∧
    carriesRequest (.post 0 9 [] .taken) .post 0 9 [] ∧ carriesRequest (.hello 0 9 ⟨[1], false⟩) .hello 0 9 [1] := by
  refine ⟨⟨work_serves0.1, by decide, by decide⟩, ⟨?_, .inl rfl, by decide +kernel, by decide⟩,
    ⟨.inl rfl, by decide +kernel, by decide⟩, ⟨.inl rfl, by decide, ?_⟩, .inr (.inl ⟨rfl, rfl⟩),
    .inr (.inr ⟨rfl, rfl⟩)⟩
  · unfold State.canTake
    decide +kernel
  · simp only [fieldsInRange]
    decide

theorem witness_HandleRequestsCheckTheirStanding :
    work.serves 1 ∧ namesAHandle .take = true ∧ accepts .take (handleByte 0 :: []) = true ∧
      fieldsInRange .take (handleByte 0 :: []) ∧ fieldsInRange .take (handleByte 63 :: []) ∧
      work.viewEntry 1 63 = none ∧ work.viewEntry 1 0 = some ⟨0, 5⟩ ∧ work.standing 1 0 .take = some .noRight ∧
      work.standing 1 0 .freeze = some .notAdmin ∧ work.standing 1 0 .claimTally = some .notVacant := by
  refine ⟨work_serves1, by decide, by decide, ?_, ?_, by decide +kernel⟩ <;>
  · simp only [fieldsInRange]
    decide

theorem witness_HelloAndLeaveOpenAndEndSessions :
    ((State.reset.port 3).session = .offline ∧ State.reset.canTake 3) ∧
    (let s := State.reset.setPort 3 { Port.atReset with slot := .working (.hello 9) }
     (s.port 3).session = .offline ∧ s.resetPin = false ∧ (s.port 3).sessionEnd = none ∧
        (s.port 3).slot = .working (.hello 9)) ∧ work.serves 0 := by
  refine ⟨⟨by decide +kernel, ?_⟩, by decide +kernel, work_serves0⟩
  unfold State.canTake
  decide +kernel

/-- P0 of `work` within a session end that LEAVE began. -/
def leaving (step : EndStep) : State := work0 fun x => { x with slot := .working (.leave 9), sessionEnd := some step }

theorem witness_SessionEndUnbindsViews :
    (leaving .views).resetPin = false ∧ ((leaving .views).port 0).posting = none ∧
      ((leaving .views).port 0).sessionEnd = some .views := by decide +kernel

theorem witness_SessionEndLeavesReaderSets :
    (leaving .readers).resetPin = false ∧ ((leaving .readers).port 0).posting = none ∧
      ((leaving .readers).port 0).sessionEnd = some .readers := by decide +kernel

theorem witness_SessionEndVacatesRoles :
    ((leaving .tallyAdmin).resetPin = false ∧ ((leaving .tallyAdmin).port 0).posting = none ∧
      ((leaving .tallyAdmin).port 0).sessionEnd = some .tallyAdmin) ∧
    ((leaving .groupAdmin).resetPin = false ∧ ((leaving .groupAdmin).port 0).posting = none ∧
      ((leaving .groupAdmin).port 0).sessionEnd = some .groupAdmin) := by decide +kernel

theorem witness_SessionEndEmptiesTheEventBlock :
    ((leaving .events).resetPin = false ∧ ((leaving .events).port 0).posting = none ∧
      ((leaving .events).port 0).sessionEnd = some .events ∧ ((leaving .events).port 0).slot = .working (.leave 9)) ∧
    (let s := work0 fun x => { x with slot := .working (.hello 9), sessionEnd := some .events }
     s.resetPin = false ∧ (s.port 0).posting = none ∧ (s.port 0).sessionEnd = some .events ∧
        (s.port 0).slot = .working (.hello 9)) ∧
    (let s := work0 fun x => { x with slot := .working .portReset, sessionEnd := some .events }
     s.resetPin = false ∧ (s.port 0).posting = none ∧ (s.port 0).sessionEnd = some .events ∧
        (s.port 0).slot = .working .portReset) := by decide +kernel

/-! ### Events -/

/-- Fifteen different NOTICE events. -/
def fullQueue : List Event :=
  (List.finRange 15).map fun i => ⟨.limitReached, .tally (i.castLE (by decide)), .side .upper, 1⟩

/-- `work` with an event block at P0. -/
def waiting (b : EventBlock) : State := work0 fun x => { x with events := b }

theorem witness_PostingMergesAppendsOrMarks :
    (work.port 2).session = .offline ∧ (work.port 0).session = .online ∧
    (let e : Event := ⟨.limitReached, .tally 50, .side .upper, 1⟩
     let after : List Event := [⟨.snapshotReady, .group 2, .interval 14, 1⟩]
     queue87.queue = [] ++ e :: after ∧ (e.kind = .limitReached ∧ e.subject = .tally 50) ∧
        (∀ f ∈ [] ++ after, ¬(f.kind = .limitReached ∧ f.subject = .tally 50)) ∧ e.merged ≤ 255) ∧
    ((∀ f ∈ fullQueue.take 14, ¬(f.kind = .closeMissed ∧ f.subject = .group 0)) ∧ (fullQueue.take 14).length < 15) ∧
    ((∀ f ∈ fullQueue, ¬(f.kind = .closeMissed ∧ f.subject = .group 0)) ∧ 15 ≤ fullQueue.length ∧
      (EventBlock.mk fullQueue none Mask.empty []).marker = none ∧
      (EventBlock.mk fullQueue (some 255) Mask.empty []).marker = some 255) := by decide +kernel

theorem witness_MaskAndAcknowledge :
    work.serves 0 ∧ (work.port 0).events.stack = [] ∧
    (let s := waiting ⟨[], none, Mask.empty, [⟨.limitReached, .tally 50, .side .upper, 1⟩]⟩
     s.serves 0 ∧ (s.port 0).events.stack = ⟨.limitReached, .tally 50, .side .upper, 1⟩ :: []) :=
  ⟨work_serves0, by decide +kernel, serves_of_test (by decide +kernel), by decide +kernel⟩

theorem witness_TakeEventSelects :
    (let s := waiting ⟨[⟨.limitReached, .tally 50, .side .upper, 1⟩], some 1, ⟨true, false, true⟩, []⟩
     let b := (s.port 0).events
     s.serves 0 ∧ ¬b.holdsDeliverable) ∧
    (let s := waiting ⟨fullQueue, some 2, Mask.empty, []⟩
     let b := (s.port 0).events
     s.serves 0 ∧ b.marker = some 2 ∧ b.delivers .fault) ∧
    (let s := waiting queue87
     let b := (s.port 0).events
     let before : List Event := [⟨.limitReached, .tally 50, .side .upper, 1⟩]
     let e : Event := ⟨.snapshotReady, .group 2, .interval 14, 1⟩
     s.serves 0 ∧ b.queue = before ++ e :: [] ∧ b.delivers e.kind.cls ∧ b.marker = none ∧
        (∀ f ∈ b.queue, b.delivers f.kind.cls → f.kind.cls.rank ≤ e.kind.cls.rank) ∧
        ∀ f ∈ before, f.kind.cls ≠ e.kind.cls) := by
  simp only [EventBlock.delivers_iff, EventBlock.holdsDeliverable_iff]
  exact ⟨⟨serves_of_test (by decide +kernel), by decide +kernel⟩, ⟨serves_of_test (by decide +kernel), by decide +kernel⟩,
    serves_of_test (by decide +kernel), by decide +kernel⟩

/-! ### Tallies, limits and views -/

theorem witness_DefineTakesTheLowestFreeTally :
    (work.serves 0 ∧ (work.tally 3).state = .free ∧ ∀ v, v < 3 → (work.tally v).state ≠ .free) ∧
    (let s := { work with tallies := Vector.replicate 256 (tallyOf .sumU (some 5) 0) }
     s.serves 0 ∧ ∀ u, (s.tally u).state ≠ .free) :=
  ⟨⟨work_serves0, by decide +kernel⟩, serves_of_test (by decide +kernel), by decide +kernel⟩

theorem witness_RetireFreesTheTally :
    (closing.serves 0 ∧ closing.viewEntry 0 0 = some ⟨0, 10⟩ ∧ (closing.tally 0).admin = some 0 ∧
      (closing.group (closing.tally 0).group).state = .closing) ∧
    (work.serves 0 ∧ work.viewEntry 0 0 = some ⟨0, 10⟩ ∧ (work.tally 0).admin = some 0 ∧
      (work.group (work.tally 0).group).state = .opened ∧ 1 < (work.tally 0).bindCount) ∧
    (work.viewEntry 0 1 = some ⟨1, 1000⟩ ∧ (work.tally 1).admin = some 0 ∧
      (work.group (work.tally 1).group).state = .opened ∧ (work.tally 1).bindCount ≤ 1 ∧
      (work.tally 1).stagedCount = 0) :=
  ⟨⟨closing_serves0, by decide +kernel⟩, ⟨work_serves0, by decide +kernel⟩, by decide +kernel⟩

theorem witness_GrantAndClaimTally :
    (work.serves 0 ∧ work.viewEntry 0 0 = some ⟨0, 10⟩ ∧ (work.tally 0).admin = some 0) ∧
    (let s := work.setTally 0 { tallyOf .sumU (some 5) 2 with admin := none }
     s.serves 1 ∧ s.viewEntry 1 0 = some ⟨0, 5⟩ ∧ (s.tally 0).admin = none) :=
  ⟨⟨work_serves0, by decide +kernel⟩, serves_of_test (by decide +kernel), by decide +kernel⟩

theorem witness_FreezeAndResumeSetTheState :
    work.serves 0 ∧ work.viewEntry 0 0 = some ⟨0, 10⟩ ∧ (work.tally 0).admin = some 0 ∧ work.owed 0 = false :=
  ⟨work_serves0, by decide +kernel⟩

theorem witness_SetLimitSetsRemovesReports :
    (work.serves 0 ∧ work.viewEntry 0 2 = some ⟨2, 1⟩ ∧ (work.tally 2).admin = some 0 ∧ (work.tally 2).kind = .peak) ∧
    (work.viewEntry 0 1 = some ⟨1, 1000⟩ ∧ (work.tally 1).admin = some 0 ∧ (work.tally 1).kind ≠ .peak ∧
      (work.tally 1).kind.holds (signedValue false (2 ^ 63)) = false ∧
      (work.tally 1).kind.holds (signedValue true (2 ^ 63)) = true ∧ (work.tally 1).value = some 7) ∧
    2 ^ 64 - 1 < 2 ^ 64 ∧ 2 ^ 32 - 1 < 2 ^ 32 :=
  ⟨⟨work_serves0, by decide +kernel⟩, by decide +kernel, by decide, by decide⟩

theorem witness_EvaluationFollowsTheLimitTables :
    (let x := { tallyOf .sumS (some 10) 1 with
        upper := some ⟨10, 0, .tripped⟩, lower := some ⟨10, 0, .armed⟩ }
     ((work.setTally 1 x).tally 1).value = some 10 ∧ ((work.setTally 1 x).tally 1).upper = some ⟨10, 0, .tripped⟩ ∧
        ((work.setTally 1 x).tally 1).lower = some ⟨10, 0, .armed⟩) ∧
    (work.tally 1).value = some 7 ∧ (work.tally 1).upper = none ∧ (work.tally 1).lower = none := by decide +kernel

theorem witness_BindAndUnbind :
    (work.serves 1 ∧ 1 ≤ 65535 ∧ 65535 < 65536 ∧ work.viewEntry 1 0 = some ⟨0, 5⟩) ∧
    (work.viewEntry 1 1 = none ∧ (work.tally 3).state = .free) ∧
    (let s := work.setTally 1 { tallyOf .sumS (some 7) 1 with rights := Vector.replicate 4 Rights.none }
     s.serves 1 ∧ s.viewEntry 1 1 = none ∧ (s.tally 1).state ≠ .free ∧
        s.rightsOf 1 1 = ⟨false, false, false, false⟩) ∧
    ((work.tally 0).state ≠ .free ∧ work.rightsOf 1 0 ≠ ⟨false, false, false, false⟩ ∧
      ∀ h'' e', work.viewEntry 1 h'' = some e' → e'.tally = 0 → h'' = 0) ∧
    ((work.tally 2).state ≠ .free ∧ work.rightsOf 1 2 ≠ ⟨false, false, false, false⟩ ∧
      ∀ h' e, work.viewEntry 1 h' = some e → e.tally ≠ 2) := by
  have only : ∀ h : HandleId, work.viewEntry 1 h = none ∨ (h = 0 ∧ work.viewEntry 1 h = some ⟨0, 5⟩) := by
    decide +kernel
  refine ⟨⟨work_serves1, by decide +kernel⟩, by decide +kernel, ⟨serves_of_test (by decide +kernel), by decide +kernel⟩,
    ⟨by decide +kernel, by decide +kernel, fun h e he _ => ?_⟩, by decide +kernel, by decide +kernel, fun h e he => ?_⟩
  · rcases only h with h0 | h0
    · simp [h0] at he
    · exact h0.1
  · rcases only h with h0 | h0
    · simp [h0] at he
    · rw [h0.2, Option.some.injEq] at he
      subst he
      decide

/-! ### Contributions -/

theorem witness_PostStagesItsEntries :
    work.serves 0 ∧ 1 ≤ [((0 : Byte), 5#32)].length ∧ (List.replicate 8 ((63 : Byte), 5#32)).length ≤ 8 :=
  ⟨work_serves0, by decide, by decide⟩

theorem witness_PostExaminesEntryByEntry :
    work.serves 0 ∧ 1 ≤ [((0 : Byte), 5#32)].length ∧ (List.replicate 8 ((63 : Byte), 5#32)).length ≤ 8 ∧
    (work.resetPin = false ∧ (work.port 0).posting = none) ∧
    (let w : PostWork := ⟨9, [(0, 5#32), (1, 6#32)], [.noRight]⟩
     let s := work0 fun x => { x with slot := .working (.request 9), posting := some w }
     s.resetPin = false ∧ (s.port 0).posting = some w ∧ w.rest = (0, 5#32) :: [(1, 6#32)] ∧
        s.entryStatus 0 0 = .ok ∧ (s.port 0).fifo.length < 8) ∧
    (let w : PostWork := ⟨9, [(0, 5#32)], []⟩
     let s := work0 fun x =>
       { x with slot := .working .portReset, posting := some w, fifo := List.replicate 8 ⟨2, 1, 1, 0⟩ }
     s.resetPin = false ∧ (s.port 0).posting = some w ∧ w.rest = (0, 5#32) :: [] ∧ s.entryStatus 0 0 = .ok ∧
        ¬(s.port 0).fifo.length < 8 ∧ (s.port 0).slot = .working .portReset) :=
  ⟨work_serves0, by decide, by decide, by decide +kernel, by decide +kernel, by decide +kernel⟩

/-- `work` with staged entries of P1 and the tally they name. -/
def staged (u : TallyId) (x : Tally) (fifo : List Staged) : State :=
  (work.setTally u { x with stagedCount := fifo.length }).setPort 1 { work.port 1 with fifo := fifo }

theorem witness_DrainWaitsForTheFifo :
    (work.serves 0 ∧ (work.port 0).fifo = []) ∧
    (let s := staged 0 (tallyOf .sumU (some 5) 2) [⟨0, 5, 30, 1⟩]
     s.serves 1 ∧ (s.port 1).fifo ≠ []) :=
  ⟨⟨work_serves0, by decide +kernel⟩, serves_of_test (by decide +kernel), by decide +kernel⟩

/-- P1's turn comes after P0's empty FIFO. -/
theorem staged_turn (u : TallyId) (x : Tally) (e : Staged) (rest : List Staged) :
    (staged u x (e :: rest)).turnOf 1 e rest := by
  have h0 : (work.port 0).fifo = [] := by decide +kernel
  have hp : work.pointer = 0 := rfl
  refine ⟨by simp [staged], 1, by simp [staged, hp], fun j hj => ?_⟩
  have : j = 0 := by omega
  subst this
  simp [staged, hp, h0]

theorem witness_ApplyServesInTurn :
    (work.resetPin = false ∧ ∀ q, (work.port q).fifo = []) ∧
    (let s := staged 0 (tallyOf .sumU (some 5) 2) [⟨0, 5, 30, 1⟩]
     s.resetPin = false ∧ s.turnOf 1 ⟨0, 5, 30, 1⟩ [] ∧ s.owed 0 = false) :=
  ⟨by decide +kernel, by decide +kernel, staged_turn _ _ _ _, by decide +kernel⟩

theorem witness_ApplyDropsAtFrozen :
    let s := staged 0 { tallyOf .sumU (some 5) 2 with state := .frozen, dropped := 255 } [⟨0, 5, -30, 1⟩]
    s.resetPin = false ∧ s.turnOf 1 ⟨0, 5, -30, 1⟩ [] ∧ s.owed 0 = false ∧ (s.tally 0).state = .frozen :=
  ⟨by decide +kernel, staged_turn _ _ _ _, by decide +kernel⟩

theorem witness_ApplySumU :
    (let e : Staged := ⟨0, 5, 30, 1⟩
     let s := staged 0 (tallyOf .sumU (some (2 ^ 64 - 100)) 2) [e]
     s.resetPin = false ∧ s.turnOf 1 e [] ∧ s.owed 0 = false ∧ (s.tally 0).state = .live ∧ (s.tally 0).kind = .sumU ∧
        (s.tally 0).value = some (2 ^ 64 - 100) ∧ (0 : Int) ≤ 2 ^ 64 - 100 ∧ (2 : Int) ^ 64 - 100 < 2 ^ 64 ∧ e.Sound 1 ∧
        0 ≤ e.quantity * (e.weight : Int)) ∧
    (let e : Staged := ⟨0, 65535, -2 ^ 31, 1⟩
     let s := staged 0 (tallyOf .sumU (some 0) 2) [e]
     s.turnOf 1 e [] ∧ s.owed 0 = false ∧ (s.tally 0).value = some 0 ∧ e.Sound 1 ∧ e.quantity * (e.weight : Int) < 0) := by
  refine ⟨⟨by decide +kernel, staged_turn _ _ _ _, by decide +kernel, by decide +kernel, by decide +kernel,
    by decide +kernel, by decide, by decide, ?_, by decide⟩, staged_turn _ _ _ _, by decide +kernel, by decide +kernel,
    ?_, by decide⟩ <;>
  · unfold Staged.Sound weightSound
    decide

theorem witness_ApplySumS :
    let e : Staged := ⟨1, 1000, 2, 1⟩
    (let s := staged 1 (tallyOf .sumS (some (2 ^ 63 - 2001)) 1) [e]
     s.resetPin = false ∧ s.turnOf 1 e [] ∧ s.owed 1 = false ∧ (s.tally 1).state = .live ∧ (s.tally 1).kind = .sumS ∧
        (s.tally 1).value = some (2 ^ 63 - 2001) ∧
        (-2 ^ 63 : Int) ≤ 2 ^ 63 - 2001 + e.quantity * (e.weight : Int) ∧
        (2 ^ 63 - 2001 : Int) + e.quantity * (e.weight : Int) ≤ 2 ^ 63 - 1) ∧
    (let s := staged 1 (tallyOf .sumS (some (2 ^ 63 - 2000)) 1) [e]
     s.turnOf 1 e [] ∧ s.owed 1 = false ∧ (s.tally 1).policy = .saturate ∧
        ¬(2 ^ 63 - 2000 : Int) + e.quantity * (e.weight : Int) ≤ 2 ^ 63 - 1) ∧
    (let s := staged 1 { tallyOf .sumS (some (2 ^ 63 - 2000)) 1 with policy := .freeze } [e]
     s.turnOf 1 e [] ∧ s.owed 1 = false ∧ (s.tally 1).policy = .freeze) :=
  ⟨⟨by decide +kernel, staged_turn _ _ _ _, by decide +kernel⟩, ⟨staged_turn _ _ _ _, by decide +kernel⟩,
    staged_turn _ _ _ _, by decide +kernel⟩

theorem witness_ApplyPeak :
    let s := staged 2 (tallyOf .peak none 1) [⟨2, 1, -2 ^ 31, 1⟩]
    s.resetPin = false ∧ s.turnOf 1 ⟨2, 1, -2 ^ 31, 1⟩ [] ∧ s.owed 2 = false ∧ (s.tally 2).state = .live ∧
      (s.tally 2).kind = .peak ∧ (s.tally 2).upper = none ∧ (s.tally 2).lower = none :=
  ⟨by decide +kernel, staged_turn _ _ _ _, by decide +kernel⟩

/-! ### Direct access -/

theorem witness_ReadReportsTheRecord :
    work.serves 1 ∧ work.viewEntry 1 0 = some ⟨0, 5⟩ ∧ (work.rightsOf 1 0).read = true ∧ work.owed 0 = false :=
  ⟨work_serves1, by decide +kernel⟩

theorem witness_TakeDrawsTheValue :
    work.serves 0 ∧
    (work.viewEntry 0 2 = some ⟨2, 1⟩ ∧ (work.rightsOf 0 2).draw = true ∧ work.owed 2 = false ∧
      (work.tally 2).kind = .peak) ∧
    (work.viewEntry 0 0 = some ⟨0, 10⟩ ∧ (work.rightsOf 0 0).draw = true ∧ work.owed 0 = false ∧
      (work.tally 0).kind ≠ .peak ∧ (work.tally 0).value ≠ some 0) ∧
    (let s := work.setTally 0 (tallyOf .sumU (some 0) 2)
     s.serves 0 ∧ s.viewEntry 0 0 = some ⟨0, 10⟩ ∧ (s.rightsOf 0 0).draw = true ∧ s.owed 0 = false ∧
        (s.tally 0).kind ≠ .peak ∧ (s.tally 0).value = some 0) :=
  ⟨work_serves0, by decide +kernel, by decide +kernel, serves_of_test (by decide +kernel), by decide +kernel⟩

theorem witness_ExchangeComparesAndStores :
    work.serves 0 ∧
    (work.viewEntry 0 2 = some ⟨2, 1⟩ ∧ (work.rightsOf 0 2).draw = true ∧ work.owed 2 = false ∧
      (work.tally 2).kind = .peak) ∧
    (work.viewEntry 0 0 = some ⟨0, 10⟩ ∧ (work.rightsOf 0 0).draw = true ∧ work.owed 0 = false ∧
      (work.tally 0).kind ≠ .peak ∧ (work.tally 0).kind.holds (signedValue true 1) = false ∧
      (work.tally 0).kind.holds (signedValue false (2 ^ 64 - 1)) = true ∧
      (work.tally 0).value ≠ some (signedValue true 5) ∧ (work.tally 0).value = some (signedValue false 5) ∧
      signedValue false (2 ^ 64 - 1) ≠ signedValue false 5) ∧ 2 ^ 64 - 1 < 2 ^ 64 :=
  ⟨work_serves0, by decide +kernel, by decide +kernel, by decide⟩

theorem witness_ClearFlagsNeedsTheToken :
    work.serves 0 ∧ work.viewEntry 0 0 = some ⟨0, 10⟩ ∧ (work.rightsOf 0 0).read = true ∧ work.owed 0 = false ∧
      (0 : Byte) = (work.tally 0).token ∧ (255 : Byte) ≠ (work.tally 0).token :=
  ⟨work_serves0, by decide +kernel⟩

/-! ### The copy step, groups and closes -/

theorem witness_CopyStepMovesTheClosingValues :
    ((closing.ring (closing.tally 1).group)[0]? = some (recordOf .filling [none, none, none] [0, 1]) ∧
      (recordOf .filling [none, none, none] [0, 1]).state = .filling ∧
      (recordOf .filling [none, none, none] [0, 1]).members = [0] ++ 1 :: [2] ∧ (1 : TallyId) ∉ [0]) ∧
    ((closed.ring (closed.tally 1).group)[0]? = some (recordOf .ready copiedCells [0, 1]) ∧
      (recordOf .ready copiedCells [0, 1]).state = .ready) := by decide +kernel

theorem witness_FirstTouchDoesTheCopyStep :
    (closing.owed 0 = true ∧ Req.freeze ∈ [Req.read, .take, .exchange, .clearFlags, .freeze, .resume] ∧
      closing.serves 0 ∧ closing.viewEntry 0 0 = some ⟨0, 10⟩ ∧ closing.standing 0 0 .freeze = none ∧
      accepts .freeze (handleByte 0 :: []) = true ∧ fieldsInRange .freeze (handleByte 0 :: [])) ∧
    (let s := closing.setPort 1 { closing.port 1 with fifo := [⟨0, 5, 30, 1⟩] }
     s.owed 0 = true ∧ s.resetPin = false ∧ s.turnOf 1 ⟨0, 5, 30, 1⟩ []) := by
  refine ⟨⟨by decide +kernel, by decide, closing_serves0, by decide +kernel, by decide +kernel, by decide, ?_⟩,
    by decide +kernel, by decide +kernel, by decide +kernel, 1, by decide +kernel, by decide +kernel⟩
  simp only [fieldsInRange]
  decide

theorem witness_ClaimAndSetGroup :
    work.serves 0 ∧ (work.group 0).admin ≠ none ∧ (work.group 0).admin = some 0 ∧ (work.group 7).admin = none ∧
      (work.group 7).admin ≠ some 0 ∧ 65535 < 65536 :=
  ⟨work_serves0, by decide +kernel⟩

/-- A record that holds `n` cells. -/
def recordOfCells (i : Interval) (n : Nat) : SnapRecord :=
  { recordOf .ready [] [0] with interval := i, members := List.replicate n 0 }

/-- G4 of the example of R110: records 70, 71 and 72 of 10, 10 and 30 cells, 5 cells free. -/
def ring110 : State :=
  { ((work.setGroup 4 { Group.atReset with policy := .discardOldest, interval := 73 }).setRing 4
      [recordOfCells 70 10, recordOfCells 71 10, recordOfCells 72 30]) with freeCells := 5 }

/-- R110: 30 members are admitted after three drops; with 0 free cells and records of 5 cells they are not. -/
theorem test_admission_example :
    ring110.admission 4 30 = .admitted 3 ∧
    ({ ring110.setRing 4 [recordOfCells 70 5, recordOfCells 71 5, recordOfCells 72 5] with
      freeCells := 0 } : State).admission 4 30 = .noSpace := by decide +kernel

theorem witness_AdmissionFollowsTheRingPolicy :
    ((work.group 0).policy = .hold ∧ (work.ring 0).length ≤ 4 ∧ (work.ring 0).length < 4 ∧
      (¬∃ r ∈ work.ring 0, r.interval = (work.group 0).interval) ∧ 1024 ≤ work.freeCells ∧ work.freeCells < 1025) ∧
    (let s := work.setRing 0 (List.replicate 4 (recordOf .ready copiedCells [0]))
     (s.group 0).policy = .hold ∧ (s.ring 0).length ≤ 4 ∧ (s.ring 0).length = 4) ∧
    ((ring110.group 4).policy = .discardOldest ∧
      (let suffices_ := fun k : Nat => ((ring110.ring 4).drop k).length ≤ 3 ∧
       30 ≤ ring110.freeCells + cellsHeld ((ring110.ring 4).take k) ∧
          ¬∃ r ∈ (ring110.ring 4).drop k, r.interval = (ring110.group 4).interval
       3 ≤ (ring110.ring 4).length ∧ suffices_ 3 ∧ ∀ j, j < 3 → ¬suffices_ j) ∧
      ring110.freeCells + cellsHeld (ring110.ring 4) < 56) := by decide +kernel

theorem witness_CloseStartsWhenAdmitted :
    work.serves 0 ∧ (work.group 0).admin = some 0 ∧ (work.group 0).state = .opened ∧ work.membersOf 0 ≠ [] ∧
      work.readersOf (work.membersOf 0) ≠ [] ∧ work.admission 0 (work.membersOf 0).length = .admitted 0 ∧
      ∀ r ∈ work.ring 0, r.readers.Nodup :=
  ⟨work_serves0, by decide +kernel⟩

/-- `work` with no free cells. -/
def crowded : State := { work with freeCells := 0 }

theorem witness_CloseWithoutARecord :
    (work.serves 1 ∧ (work.group 0).admin ≠ some 1) ∧
    (closing.serves 0 ∧ (closing.group 0).admin = some 0 ∧ (closing.group 0).state = .closing) ∧
    (let s := work.setGroup 5 { Group.atReset with admin := some 0 }
     s.serves 0 ∧ (s.group 5).admin = some 0 ∧ (s.group 5).state = .opened ∧
        ¬(s.membersOf 5 ≠ [] ∧ s.readersOf (s.membersOf 5) ≠ [])) ∧
    (crowded.serves 0 ∧ (crowded.group 0).admin = some 0 ∧ (crowded.group 0).state = .opened ∧
      crowded.membersOf 0 ≠ [] ∧ crowded.readersOf (crowded.membersOf 0) ≠ [] ∧
      crowded.admission 0 (crowded.membersOf 0).length = .noSpace) ∧
    (let s := work.setRing 0 (List.replicate 4 (recordOf .ready copiedCells [0]))
     s.serves 0 ∧ (s.group 0).admin = some 0 ∧ s.membersOf 0 ≠ [] ∧ s.readersOf (s.membersOf 0) ≠ [] ∧
        s.admission 0 (s.membersOf 0).length = .ringFull) :=
  ⟨⟨work_serves1, by decide +kernel⟩, ⟨closing_serves0, by decide +kernel⟩,
    ⟨serves_of_test (by decide +kernel), by decide +kernel⟩, ⟨serves_of_test (by decide +kernel), by decide +kernel⟩,
    serves_of_test (by decide +kernel), by decide +kernel⟩

theorem witness_GroupStatusAndSnapListReport : closing.serves 0 := closing_serves0

theorem witness_ReadSnapReturnsCells :
    (closed.serves 0 ∧ 1 ≤ (1 : Byte).toNat ∧ (8 : Byte).toNat ≤ 8 ∧ ∀ r ∈ closed.ring 0, r.interval ≠ 1) ∧
    (closing.serves 0 ∧ closing.ring 0 = [] ++ recordOf .filling [none, none, none] [0, 1] :: [] ∧
      (recordOf .filling [none, none, none] [0, 1]).interval = 0 ∧
      (recordOf .filling [none, none, none] [0, 1]).state = .filling) ∧
    (let r := recordOf .ready copiedCells [0, 1]
     closed.ring 0 = [] ++ r :: [] ∧ r.interval = 0 ∧ r.state = .ready ∧ (0 : PortId) ∈ r.readers ∧
        (2 : PortId) ∉ r.readers ∧ r.members.length ≤ (3 : Byte).toNat ∧ (2 : Byte).toNat < r.members.length ∧
        r.cells = [SnapCell.mk (some 5) 2 false false, ⟨some 7, 1, false, false⟩, ⟨none, 0, false, false⟩].map some ∧
        [SnapCell.mk (some 5) 2 false false, ⟨some 7, 1, false, false⟩, ⟨none, 0, false, false⟩].length
          = r.members.length) :=
  ⟨⟨closed_serves0, by decide +kernel⟩, ⟨closing_serves0, by decide +kernel⟩, by decide +kernel⟩

theorem witness_ReleaseLeavesTheReaderSet :
    (closed.serves 0 ∧ ∀ r ∈ closed.ring 0, r.interval ≠ 1) ∧
    (let r := recordOf .ready copiedCells [0, 1]
     closed.ring 0 = [] ++ r :: [] ∧ (∀ o ∈ ([] ++ [] : List SnapRecord), o.interval ≠ 0) ∧ r.interval = 0 ∧
        (0 : PortId) ∈ r.readers ∧ (2 : PortId) ∉ r.readers) :=
  ⟨⟨closed_serves0, by decide +kernel⟩, by decide +kernel⟩

theorem witness_TickLowersTheCountdowns :
    work.resetPin = false ∧ (work.group 0).period = 0 ∧
    (let x : Group := { Group.atReset with period := 4, countdown := 2 }
     x.period ≠ 0 ∧ x.owedEdges = 0 ∧ 1 < x.countdown) ∧
    (let x : Group := { Group.atReset with period := 4, countdown := 1 }
     x.period ≠ 0 ∧ x.countdown ≤ 1) := by decide +kernel

/-- `s` with a TICK edge owed to G0, its countdown at `n` of 4. -/
def edge (s : State) (n : Nat) : State := s.setGroup 0 { s.group 0 with period := 4, countdown := n, owedEdges := 1 }

theorem witness_TimedCloseIsMadeOrMissed :
    (work.resetPin = false ∧ 0 < ((edge work 1).group 0).owedEdges ∧ ((edge work 1).group 0).period ≠ 0 ∧
      ((edge work 1).group 0).countdown ≤ 1 ∧ ((edge work 1).group 0).state = .opened ∧
      (edge work 1).membersOf 0 ≠ [] ∧ (edge work 1).readersOf ((edge work 1).membersOf 0) ≠ [] ∧
      (edge work 1).admission 0 ((edge work 1).membersOf 0).length = .admitted 0 ∧
      ∀ r ∈ (edge work 1).ring 0, r.readers.Nodup) ∧
    1 < ((edge work 2).group 0).countdown ∧
    ((edge closing 1).resetPin = false ∧ ((edge closing 1).group 0).state = .closing) ∧
    (edge crowded 1).admission 0 ((edge crowded 1).membersOf 0).length = .noSpace ∧
    (let s := edge (work.setRing 0 (List.replicate 4 (recordOf .ready copiedCells [0]))) 1
     s.admission 0 (s.membersOf 0).length = .ringFull) ∧
    (let s := work.setGroup 5 { Group.atReset with period := 4, countdown := 1, owedEdges := 1 }
     (s.group 5).state = .opened ∧ ¬(s.membersOf 5 ≠ [] ∧ s.readersOf (s.membersOf 5) ≠ [])) ∧
    (let s := work.setGroup 5 { Group.atReset with owedEdges := 1 }
     0 < (s.group 5).owedEdges ∧ (s.group 5).period = 0) := by decide +kernel

theorem witness_CopierWalksAndEndsTheClose :
    let r := recordOf .filling [none, none, none] [0, 1]
    (closing.resetPin = false ∧ (closing.group 0).state = .closing ∧ closing.ring 0 = [] ++ [r] ∧ r.state = .filling ∧
      r.members[(closing.group 0).walk]? = some 0 ∧ closing.owed 0 = true ∧
      (closing.group 0).walk < r.members.length) ∧
    (let s := closing.copyStep 0
     s.ring 0 = [] ++ [{ r with cells := [some ⟨some 5, 0, false, false⟩, none, none] }] ∧ s.owed 0 = false) ∧
    (let s := closing.setGroup 0 { closing.group 0 with walk := 3 }
     s.ring 0 = [] ++ [r] ∧ r.members.length ≤ (s.group 0).walk ∧ r.discard = false ∧ r.readers.Nodup) ∧
    (let q := { recordOf .filling [none, none, none] [] with discard := true }
     let s := (closing.setGroup 0 { closing.group 0 with walk := 3 }).setRing 0 [q]
     s.ring 0 = [] ++ [q] ∧ q.members.length ≤ (s.group 0).walk ∧ q.discard = true) := by decide +kernel

/-! ### The invariants, each met by a state with work in it and a command at the front of its queue -/

/-- `closing` with the copier's step at the front of the queue. -/
def copying : State := closing.setPending [.copierStep 0]

theorem copying_AlertsFollow : copying.AlertsFollow := by
  rw [State.alertsFollow_iff]
  decide +kernel

theorem copying_CellsConserved : copying.CellsConserved := by
  unfold State.CellsConserved
  decide +kernel

/-- What the views of `copying` hold. -/
theorem copying_view (p : PortId) (h : HandleId) :
    copying.viewEntry p h = none ∨
      ∃ e, copying.viewEntry p h = some e ∧ e.tally.val = h.val ∧ 1 ≤ e.weight ∧ e.weight < 65536 ∧ p.val < 2 := by
  have small : ∀ (p : PortId) (h : HandleId), copying.viewEntry p h = none ∨
      copying.viewEntry p h = some ⟨h.castLE (by decide), if p = 1 then 5 else if h = 0 then 10 else
        if h = 1 then 1000 else 1⟩ ∧ p.val < 2 := by decide +kernel
  rcases small p h with h0 | h0
  · exact .inl h0
  · refine .inr ⟨_, h0.1, rfl, ?_, ?_, h0.2⟩ <;> (simp only; split_ifs <;> decide)

theorem copying_CountsAgree : copying.CountsAgree := by
  refine ⟨by decide +kernel, fun p h h' e e' he he' hh => ?_⟩
  rcases copying_view p h with h0 | ⟨x, hx, hxt, -⟩
  · simp [h0] at he
  rcases copying_view p h' with h1 | ⟨y, hy, hyt, -⟩
  · simp [h1] at he'
  rw [hx, Option.some.injEq] at he
  rw [hy, Option.some.injEq] at he'
  subst he he'
  exact Fin.ext (by rw [← hxt, ← hyt, hh])

theorem copying_StoreSound : copying.StoreSound := by
  have rings : ∀ g : GroupId, (g = 0 ∧ (copying.group g).state = .closing ∧
      copying.ring g = [recordOf .filling [none, none, none] [0, 1]]) ∨
      ((copying.group g).state = .opened ∧ copying.ring g = []) := by decide +kernel
  intro g
  rcases rings g with ⟨-, hs, hr⟩ | ⟨hs, hr⟩
  · rw [hs, hr]
    refine ⟨⟨by decide, by simp, [], _, rfl, rfl, by simp⟩, fun r h => ?_⟩
    rw [List.mem_singleton] at h
    subst h
    exact ⟨by decide, by simp [recordOf]⟩
  · rw [hs, hr]
    exact ⟨⟨by decide, by simp, by simp⟩, by simp⟩

theorem copying_EventsSound : copying.EventsSound := by
  unfold State.EventsSound EventBlock.Sound
  decide +kernel

theorem copying_SessionsSound : copying.SessionsSound := by
  intro p
  have facts : ∀ p : PortId, ((copying.port p).sessionEnd = none ∧ (copying.port p).posting = none) ∧
      ((copying.port p).session = .offline → (∀ h, copying.viewEntry p h = none) ∧
        (∀ g, ∀ r ∈ copying.ring g, p ∉ r.readers) ∧ (∀ t, (copying.tally t).admin ≠ some p) ∧
        ∀ g, (copying.group g).admin ≠ some p) := by decide +kernel
  obtain ⟨⟨he, hw⟩, ho⟩ := facts p
  have past : ∀ k, (copying.port p).past k → (copying.port p).session = .offline := by
    rintro k (h | ⟨step, h, -⟩)
    · exact h
    · simp [he] at h
  exact ⟨fun _ => he, fun h => absurd he h, fun h => absurd hw h, fun h => (ho (past 1 h)).1, fun h => (ho (past 2 h)).2.1,
    fun h => (ho (past 3 h)).2.2.1, fun h => (ho (past 4 h)).2.2.2⟩

theorem copying_TagsSound : copying.TagsSound := by
  have rings : ∀ g : GroupId, ∀ r ∈ copying.ring g, g = 0 ∧ r = recordOf .filling [none, none, none] [0, 1] := by
    decide +kernel
  have tags : ∀ t, (copying.tally t).defined = true → (copying.tally t).group = 0 ∧ t ∈ ([0, 1, 2] : List TallyId) := by
    decide +kernel
  have ring0 : copying.ring 0 = [recordOf .filling [none, none, none] [0, 1]] := by decide +kernel
  refine ⟨fun g r hr _ => ?_, fun t ht hn => ?_⟩
  · obtain ⟨rfl, rfl⟩ := rings g r hr
    refine ⟨by decide, by decide, by decide +kernel, fun i t hi => ?_⟩
    have hlt : i < 3 := by
      rcases List.getElem?_eq_some_iff.1 hi with ⟨h, -⟩
      simpa [recordOf] using h
    have each : ∀ i : Fin 3, (copying.tally ([0, 1, 2][i])).defined = true ∧ (copying.tally ([0, 1, 2][i])).group = 0 ∧
        ([none, none, none] : List (Option SnapCell))[i.val]? = some none ∧
        (copying.tally ([0, 1, 2][i])).tag = 0 ∧ (copying.group 0).walk ≤ i.val := by decide +kernel
    have hi' : ([0, 1, 2] : List TallyId)[i]? = some t := hi
    rw [List.getElem?_eq_getElem (by simpa using hlt), Option.some.injEq] at hi'
    obtain ⟨h1, h2, h3, h4, h5⟩ := each ⟨i, hlt⟩
    simp only [Fin.getElem_fin] at h1 h2 h4
    rw [hi'] at h1 h2 h4
    exact ⟨h1, h2, .inr ⟨h3, h4, h5⟩⟩
  · obtain ⟨hg, hm⟩ := tags t ht
    rw [hg, ring0] at hn
    exact absurd hm (hn _ (List.mem_singleton.2 rfl) rfl)

theorem copying_FieldsSound : copying.FieldsSound := by
  have facts : ∀ t, copying.tally t = Tally.cleared ∨ copying.tally t = tallyOf .sumU (some 5) 2 ∨
      copying.tally t = { tallyOf .sumS (some 7) 1 with policy := .freeze } ∨
      copying.tally t = tallyOf .peak none 1 := by decide +kernel
  refine ⟨fun t => ?_, fun p => ⟨fun h e he => ?_, ?_, ?_, ?_⟩, fun g => ⟨?_, ?_⟩⟩
  · rcases facts t with h | h | h | h <;> rw [h] <;> simp [Tally.FieldsSound, Tally.cleared, tallyOf] <;> decide
  · rcases copying_view p h with h0 | ⟨x, hx, -, h1, h2, -⟩
    · have : copying.viewEntry p h = some e := he
      simp [h0] at this
    · have h3 : copying.viewEntry p h = some e := he
      rw [hx, Option.some.injEq] at h3
      subst h3
      exact ⟨h1, h2⟩
  · revert p
    decide +kernel
  · have : ∀ p, (copying.port p).fifo = [] := by decide +kernel
    simp [this]
  · have : ∀ p, (copying.port p).events = EventBlock.empty := by decide +kernel
    simp [this, EventBlock.empty, EventBlock.FieldsSound]
  · revert g
    unfold Group.FieldsSound
    decide +kernel
  · have : ∀ g : GroupId, ∀ r ∈ copying.ring g, r.missedBefore < 256 ∧ r.cells = [none, none, none] := by
      decide +kernel
    intro r hr
    refine ⟨(this g r hr).1, fun c hc => ?_⟩
    simp [(this g r hr).2] at hc

theorem copying_steps : ∃ t, step copying = .next t := ⟨_, rfl⟩

theorem witness_EveryStepKeepsAlertsFollow : ∃ s t : State, s.AlertsFollow ∧ step s = .next t :=
  ⟨copying, _, copying_AlertsFollow, rfl⟩

theorem witness_EveryStepKeepsCellsConserved : ∃ s t : State, s.CellsConserved ∧ step s = .next t :=
  ⟨copying, _, copying_CellsConserved, rfl⟩

theorem witness_EveryStepKeepsCountsAgree : ∃ s t : State, s.CountsAgree ∧ step s = .next t :=
  ⟨copying, _, copying_CountsAgree, rfl⟩

theorem witness_EveryStepKeepsStoreSound : ∃ s t : State, s.StoreSound ∧ step s = .next t :=
  ⟨copying, _, copying_StoreSound, rfl⟩

theorem witness_EveryStepKeepsEventsSound : ∃ s t : State, s.EventsSound ∧ step s = .next t :=
  ⟨copying, _, copying_EventsSound, rfl⟩

theorem witness_EveryStepKeepsSessionsSound : ∃ s t : State, s.SessionsSound ∧ step s = .next t :=
  ⟨copying, _, copying_SessionsSound, rfl⟩

theorem witness_EveryStepKeepsTagsSound :
    ∃ s t : State, s.CountsAgree ∧ s.StoreSound ∧ s.TagsSound ∧ step s = .next t :=
  ⟨copying, _, copying_CountsAgree, copying_StoreSound, copying_TagsSound, rfl⟩

theorem witness_EveryStepKeepsFieldsSound :
    ∃ s t : State, s.CountsAgree ∧ s.FieldsSound ∧ step s = .next t :=
  ⟨copying, _, copying_CountsAgree, copying_FieldsSound, rfl⟩

end Sys2Proof.Tests
end

/-! SUPPORT. What a transaction can come to: bits move the link of one port, and a frame that passes the tests is
taken and examined. -/

namespace Sys2Proof.Machine

variable {s t : State} {p : PortId} {tag : Byte}

/-! ## What bits on a link move -/

/-- The port is left as it was, but for its slot, refusal reason, link state, SOn and ALERTn#. -/
def Port.sameBesideLink (x y : Port) : Prop :=
  y.session = x.session ∧ y.number = x.number ∧ y.sessionEnd = x.sessionEnd ∧ y.posting = x.posting ∧
    y.prst = x.prst ∧ x.sameTables y

/-- Bits were clocked and no frame was taken: the slot is as it was, or a READY response has been fetched. -/
def Port.linkMoved (x y : Port) : Prop := x.sameBesideLink y ∧ (y.slot = x.slot ∨ y.slot = x.slot.emptied)

/-- A frame was taken into an EMPTY slot (R154, R157). -/
def Port.frameTaken (x y : Port) (tag : Byte) : Prop :=
  x.sameBesideLink y ∧ x.slot = .empty ∧ x.prst = false ∧ y.slot = .working (.request tag) ∧ y.reason = .none

theorem Port.sameBesideLink.refl (x : Port) : x.sameBesideLink x := by
  simp [Port.sameBesideLink, Port.sameTables]

theorem Port.sameBesideLink.trans {x y z : Port} (h : x.sameBesideLink y) (h' : y.driveAlert.sameBesideLink z) :
    x.sameBesideLink z := by
  simp only [Port.sameBesideLink, Port.sameTables, Port.driveAlert_session, Port.driveAlert_number,
    Port.driveAlert_sessionEnd, Port.driveAlert_posting, Port.driveAlert_prst, Port.driveAlert_view,
    Port.driveAlert_fifo, Port.driveAlert_events] at *
  simp [h, h']

/-! ## The examination of a taken frame -/

/-- The actions a command can have a request's block take. -/
def servesAs (r : Req) (act : State → PortId → Byte → List Byte → Reply) : Prop :=
  act = actOf r ∨ (r = .hello ∧ act = actHelloTaken) ∨ (r = .post ∧ act = actPostTaken)

/-- What the examination of a taken frame comes to: the engine's own refusal, or the block's action with its
answer or with the slot left WORKING (R157). -/
inductive Examined (s : State) (p : PortId) (tag : Byte) : State → Prop
  | refused (st : Status) : Examined s p tag (s.respond p tag ⟨st, []⟩)
  | answered (r : Req) (pl : List Byte) (act : State → PortId → Byte → List Byte → Reply) (t : State) (a : Answer)
      (online : (s.port p).session = .online ∨ r = .hello) (fits : accepts r pl = true) (serves : servesAs r act)
      (acts : act s p tag pl = (t, some a)) : Examined s p tag (t.respond p tag a)
  | waits (r : Req) (pl : List Byte) (act : State → PortId → Byte → List Byte → Reply) (t : State)
      (online : (s.port p).session = .online ∨ r = .hello) (fits : accepts r pl = true) (serves : servesAs r act)
      (acts : act s p tag pl = (t, none)) : Examined s p tag t

theorem State.examine_examined (s : State) (p : PortId) (tag : Byte) (r : Req) (pl : List Byte)
    (act : State → PortId → Byte → List Byte → Reply) (h : servesAs r act) :
    Examined s p tag (s.examine p tag r pl act) := by
  unfold State.examine
  split
  · exact .refused _
  · rename_i hs
    have online : (s.port p).session = .online ∨ r = .hello := by
      cases ho : (s.port p).session <;> simp_all
    split
    · exact .refused _
    · rename_i hl
      have fits : accepts r pl = true := by simpa using hl
      split
      · exact .answered r pl act _ _ online fits h ‹_›
      · exact .waits r pl act _ online fits h ‹_›

theorem State.examineFrame_examined (s : State) (p : PortId) (f : Frame) :
    Examined s p f.tag (s.examineFrame p f) := by
  unfold State.examineFrame
  split
  · exact .refused _
  · exact s.examine_examined p f.tag _ f.payload _ (.inl rfl)

/-! ## Transactions -/

/-- What the bits of a command come to on the port's link: nothing, a move of the link alone, or a frame taken and
examined (R151, R154). -/
inductive Transacted (s : State) (p : PortId) : State → Prop
  | unheard : Transacted s p s
  | moved (y : Port) (moved : (s.port p).linkMoved y) : Transacted s p (s.setPort p y)
  | taken (y : Port) (tag : Byte) (t : State) (taken : (s.port p).frameTaken y tag)
      (examined : Examined (s.setPort p y) p tag t) : Transacted s p t

/-- Bits that leave the slot as it is, before the rest of a transaction. -/
theorem Transacted.after_moved {y : Port} (ht : Transacted (s.setPort p y) p t)
    (hb : (s.port p).sameBesideLink y) (hl : y.slot = (s.port p).slot) : Transacted s p t := by
  cases ht with
  | unheard => exact .moved y ⟨hb, .inl hl⟩
  | moved z hz =>
    rw [State.port_setPort_self] at hz
    rw [State.setPort_setPort]
    exact .moved z ⟨hb.trans hz.1, hl ▸ hz.2⟩
  | taken z tag t hz ht =>
    rw [State.port_setPort_self] at hz
    rw [State.setPort_setPort] at ht
    obtain ⟨hb', he, hp, hs, hr⟩ := hz
    obtain ⟨-, -, -, -, hprst, -⟩ := id hb
    exact .taken z tag t ⟨hb.trans hb', hl ▸ he, hprst ▸ hp, hs, hr⟩ ht

/-- The select high of a REQUEST transaction: the frame is refused, or taken and examined (R154). -/
theorem State.endFrame_transacted (s : State) (p : PortId) (f : Except LinkReason Frame) (run : State → Frame → State)
    (hrun : ∀ s f, Examined s p f.tag (run s f)) : Transacted s p (s.endFrame p f run) := by
  have latched : ∀ r, Transacted s p (s.latch p r) := fun r => .moved _ ⟨.refl _, .inl rfl⟩
  unfold State.endFrame
  split
  · exact latched _
  · rename_i hp
    split
    · exact latched _
    · split
      · exact .taken { s.port p with reason := .none, slot := .working (.request _) } _ _
          ⟨.refl _, ‹_›, by simpa using hp, rfl, rfl⟩ (hrun _ _)
      · exact latched _

theorem State.clockTyped_transacted (s : State) (p : PortId) (si : List Bool) (rises : Bool) :
    Transacted s p (s.clockTyped p si rises) := by
  unfold State.clockTyped
  dsimp only
  split
  case h_1 | h_2 => exact .unheard
  case h_3 | h_6 | h_7 => exact .moved _ ⟨.refl _, .inl rfl⟩
  case h_4 => exact .moved _ ⟨.refl _, by dsimp only; split <;> simp⟩
  case h_5 =>
    split
    · exact .after_moved (State.endFrame_transacted _ _ _ _ fun s f => s.examineFrame_examined p f) (.refl _) rfl
    · exact .moved _ ⟨.refl _, .inl rfl⟩

theorem State.clock_transacted (s : State) (p : PortId) (si : List Bool) (rises : Bool) :
    Transacted s p (s.clock p si rises) := by
  unfold State.clock
  split
  · dsimp only
    split
    · exact .moved _ ⟨.refl _, .inl rfl⟩
    · exact .after_moved (State.clockTyped_transacted _ p _ rises) (.refl _) rfl
  · exact s.clockTyped_transacted p si rises

theorem State.ignoreTransaction_transacted (s : State) (p : PortId) (rises : Bool) :
    Transacted s p (s.ignoreTransaction p rises) := .moved _ ⟨.refl _, .inl rfl⟩

theorem State.transact_transacted (s : State) (p : PortId) (si : List Bool) (rises : Bool) :
    Transacted s p (s.transact p si rises) := by
  unfold State.transact
  split
  · exact s.ignoreTransaction_transacted p rises
  · split
    · exact .after_moved (State.clock_transacted _ p si rises) (.refl _) rfl
    · exact s.clock_transacted p si rises

theorem State.endAbandoned_transacted (s : State) (p : PortId) (n : Nat) : Transacted s p (s.endAbandoned p n) := by
  unfold State.endAbandoned
  split
  · split
    · exact s.ignoreTransaction_transacted p true
    · exact s.clock_transacted p _ true
  · exact .unheard

theorem State.requestTransaction_transacted (s : State) (p : PortId) (f : Frame) (run : State → Frame → State)
    (hrun : ∀ s f, Examined s p f.tag (run s f)) : Transacted s p (s.requestTransaction p f run) := by
  unfold State.requestTransaction
  split
  · exact s.ignoreTransaction_transacted p true
  · split
    · exact .after_moved (State.endFrame_transacted _ p _ run hrun) (.refl _) rfl
    · exact s.clock_transacted p _ true

theorem State.request_transacted (s : State) (p : PortId) (tag : Byte) (r : Req) (pl : List Byte)
    (act : State → PortId → Byte → List Byte → Reply) (h : servesAs r act) :
    Transacted s p (s.request p tag r pl act) :=
  s.requestTransaction_transacted p _ _ fun s f => s.examine_examined p f.tag r f.payload act h

/-- Every command that runs on a port's link is a transaction of that port. -/
theorem exec_transacted (c : Instr) (s : State) (h : transactionPort c = some p) :
    ∃ t, exec c s = .next t ∧ Transacted s p t := by
  cases c
  case status | fetch | unknownType | frameRefused | transactionWithoutType =>
    cases h; exact ⟨_, rfl, s.transact_transacted p _ _⟩
  case abandonedTransactionEnd => cases h; exact ⟨_, rfl, s.endAbandoned_transacted p _⟩
  case unknownRequest q tag code pl =>
    cases h
    exact ⟨_, rfl, s.requestTransaction_transacted p _ _ fun s f => s.examineFrame_examined p f⟩
  case hello q tag form =>
    cases h
    refine ⟨_, rfl, s.request_transacted p tag .hello _ _ ?_⟩
    cases form.opens
    · exact .inr (.inl ⟨rfl, rfl⟩)
    · exact .inl rfl
  case post q tag pl part =>
    cases part <;> cases h
    · exact ⟨_, rfl, s.request_transacted p tag .post pl _ (.inl rfl)⟩
    · exact ⟨_, rfl, s.request_transacted p tag .post pl _ (.inr (.inr ⟨rfl, rfl⟩))⟩
  case leave | setMask | takeEvent | ackEvent | define | retire | grant | freeze | resume | claimTally | setLimit
      | bind | unbind | drain | read | take | exchange | clearFlags | claimGroup | setGroup | close | groupStatus
      | snapList | readSnap | release =>
    cases h; exact ⟨_, rfl, s.request_transacted p _ _ _ _ (.inl rfl)⟩
  all_goals cases h

end Sys2Proof.Machine

/-! SUPPORT. The moves a command is made of. Each write of the state that some command makes is one constructor, with
what is known where it is made; `exec_moves` says that every command but RESET# asserted is a sequence of them. An
invariant that each move keeps is kept by every step. -/

namespace Sys2Proof.Machine

/-! ## The moves -/

/-- A value that a tally of the kind can have: in range, or absent on a PEAK tally (R2). -/
def Kind.allows (k : Kind) (v : Option Int) : Prop := (v = none → k = .peak) ∧ ∀ w, v = some w → k.holds w = true

/-- The record a contribution leaves, its limits not yet evaluated (R54, R56 to R62). -/
def Tally.takes (x : Tally) (e : Staged) (y : Tally) : Prop :=
  (x.state = .frozen ∧ y = x.noteDropped) ∨
    (x.state ≠ .frozen ∧ (y = (x.applyProduct e.product).1.noteApplied e.port ∨ y = (x.applyProduct e.product).1))

/-- The group record after an edge that was owed to it is handled, before any close (R85). -/
def Group.afterEdge (x : Group) : Group :=
  { x with
    owedEdges := x.owedEdges - 1
    countdown := if x.period = 0 then x.countdown else if 1 < x.countdown then x.countdown - 1 else x.period }

/-- One write of the state by a command that acts on request `a`, or on none. -/
inductive Move (a : Option Req) (s : State) : State → Prop
  -- the model's own fields, the pointer and the pins
  | queue (l : List Instr) : Move a s (s.setPending l)
  | drawn : Move a s s.draw
  | pointed (q : PortId) : Move a s { s with pointer := q }
  | resetReleased : Move a s s.releaseReset
  -- port engines and sessions
  | engine (p : PortId) (y : Port) (tables : (s.port p).sameTables y) (session : y.session = (s.port p).session)
      (number : y.number = (s.port p).number) : Move a s (s.setPort p y)
  | sessionOpened (p : PortId) (offline : (s.port p).session = .offline) : Move a s (s.openSession p)
  | viewsEnded (p : PortId) (due : (s.port p).sessionEnd = some .views) : Move a s (s.endViews p)
  | eventsEnded (p : PortId) (due : (s.port p).sessionEnd = some .events) : Move a s (s.endEvents p)
  -- event blocks
  | posted (p : PortId) (k : EventKind) (v : Subject) (d : Detail) : Move a s (s.post p k v d)
  | masked (p : PortId) (m : Mask) (online : (s.port p).session = .online) :
      Move a s (s.setEvents p { (s.port p).events with mask := m })
  | eventTaken (p : PortId) (e : Event) (b : EventBlock) (online : (s.port p).session = .online)
      (take : (s.port p).events.take = some (e, b)) : Move a s (s.setEvents p b)
  | eventAcked (p : PortId) (e : Event) (b : EventBlock) (online : (s.port p).session = .online)
      (ack : (s.port p).events.ack = some (e, b)) : Move a s (s.setEvents p b)
  -- views and staging FIFOs, with the counts that go with them
  | bound (p : PortId) (h : HandleId) (u : TallyId) (w : Nat) (vacant : s.viewEntry p h = none)
      (defined : (s.tally u).state ≠ .free) (unnamed : s.handleOf p u = none) (weight : weightSound w) :
      Move a s ((s.setView p h (some ⟨u, w⟩)).countBind u)
  | unbound (p : PortId) (h : HandleId) (e : ViewEntry) (entry : s.viewEntry p h = some e) :
      Move a s ((s.setView p h none).countUnbind e.tally)
  | staged (p : PortId) (h : HandleId) (e : ViewEntry) (q : BitVec 32) (entry : s.viewEntry p h = some e)
      (room : (s.port p).fifo.length < Config.fifoPlaces) : Move a s (s.stage p ⟨e.tally, e.weight, q.toInt, p⟩)
  | unstaged (p : PortId) (e : Staged) (rest : List Staged) (head : (s.port p).fifo = e :: rest) :
      Move a s (s.leaveFifo p e rest)
  -- tally administration
  | defined (request : a = some .define) (p : PortId) (u : TallyId) (k : Kind) (g : GroupId) (pol : OverflowPolicy)
      (reset : Bool) (free : (s.tally u).state = .free) :
      Move a s (s.setTally u (Tally.defineAs p k g pol reset (s.group g).interval))
  | retired (request : a = some .retire) (p : PortId) (h : HandleId) (e : ViewEntry)
      (entry : s.viewEntry p h = some e) (isOpen : (s.group (s.tally e.tally).group).state ≠ .closing)
      (unbound : (s.tally e.tally).bindCount ≤ 1) (unstaged : (s.tally e.tally).stagedCount = 0) :
      Move a s ((s.setView p h none).setTally e.tally Tally.cleared)
  | granted (request : a = some .grant) (u : TallyId) (q : PortId) (r : Rights) :
      Move a s (s.setTally u { s.tally u with rights := (s.tally u).rights.set q r })
  | tallyClaimed (p : PortId) (u : TallyId) (online : (s.port p).session = .online) :
      Move a s (s.setTally u { s.tally u with admin := some p })
  | tallyVacated (u : TallyId) : Move a s (s.setTally u { s.tally u with admin := none })
  | stateSet (p : PortId) (h : HandleId) (e : ViewEntry) (st : TallyState) (entry : s.viewEntry p h = some e)
      (defined : st ≠ .free) : Move a s (s.setTally e.tally { s.tally e.tally with state := st })
  | limitSet (u : TallyId) (d : Side) (l : Option Limit) (kind : (s.tally u).kind ≠ .peak)
      (sound : ∀ l', l = some l' → l'.Sound (s.tally u).kind) : Move a s (s.setTally u ((s.tally u).setLimit d l))
  -- values, flags and copy steps
  | copied (u : TallyId) (owed : s.owed u = true) : Move a s (s.copyStep u)
  | evaluated (u : TallyId) : Move a s (s.setTally u (s.tally u).evaluate)
  | valueStored (u : TallyId) (v : Option Int) (allowed : (s.tally u).kind.allows v) :
      Move a s (s.setTally u { s.tally u with value := v })
  | flagsCleared (u : TallyId) : Move a s (s.setTally u (s.tally u).clearFlags)
  | contributed (q : PortId) (e : Staged) (y : Tally) (head : e ∈ (s.port q).fifo) (takes : (s.tally e.tally).takes e y) :
      Move a s (s.setTally e.tally y)
  -- groups
  | groupClaimed (p : PortId) (g : GroupId) (online : (s.port p).session = .online) :
      Move a s (s.setGroup g { s.group g with admin := some p })
  | groupVacated (g : GroupId) : Move a s (s.setGroup g { s.group g with admin := none })
  | groupSet (g : GroupId) (k : Nat) (pol : RingPolicy) (period : k < 65536) :
      Move a s (s.setGroup g { s.group g with period := k, countdown := k, policy := pol })
  | ticked : Move a s s.tickEdge
  | edgeHandled (g : GroupId) (owed : (s.group g).owedEdges ≠ 0) : Move a s (s.setGroup g (s.group g).afterEdge)
  | missCounted (g : GroupId) : Move a s (s.setGroup g { s.group g with missed := saturate 255 (s.group g).missed })
  | walked (g : GroupId) (closing : (s.group g).state = .closing) :
      Move a s (s.setGroup g { s.group g with walk := (s.group g).walk + 1 })
  -- closes and the snapshot store
  | closedUnobserved (g : GroupId) (isOpen : (s.group g).state ≠ .closing) : Move a s (s.unobservedClose g)
  | closeStarted (g : GroupId) (c : Cause) (isOpen : (s.group g).state ≠ .closing)
      (read : s.readersOf (s.membersOf g) ≠ []) (place : (s.ring g).length ≠ Config.ringPlaces)
      (cells : (s.membersOf g).length ≤ s.freeCells) (number : ∀ r ∈ s.ring g, r.interval ≠ (s.group g).interval) :
      Move a s (s.startClose g c (s.membersOf g) (s.readersOf (s.membersOf g)))
  | closeDiscarded (g : GroupId) (r : SnapRecord) (filling : s.fillingRecord g = some r) (discard : r.discard = true)
      (walked : s.walkEnded g = true) :
      Move a s ((s.setGroup g { s.group g with state := .opened, walk := 0 }).removeRecords g (·.state == .filling))
  | closeReady (g : GroupId) (r : SnapRecord) (filling : s.fillingRecord g = some r) (keep : r.discard = false)
      (walked : s.walkEnded g = true) :
      Move a s ((s.setGroup g { s.group g with state := .opened, walk := 0 }).setRing g
        ((s.ring g).map fun r => if r.state = .filling then { r with state := .ready } else r))
  | oldestDropped (g : GroupId) (r : SnapRecord) (rest : List SnapRecord) (ring : s.ring g = r :: rest)
      (isOpen : (s.group g).state ≠ .closing) :
      Move a s { s.setRing g rest with freeCells := s.freeCells + r.members.length }
  | readersLeft (p : PortId) (g : GroupId) (which : SnapRecord → Bool) : Move a s (s.leaveReaders p g which)

/-- A sequence of moves. -/
abbrev Moves (a : Option Req) : State → State → Prop := Relation.ReflTransGen (Move a)

/-- What every move keeps, a sequence of moves keeps. -/
theorem Moves.keeps {a : Option Req} {s t : State} {I : State → Prop} (h : Moves a s t)
    (kept : ∀ s t, Move a s t → I s → I t) (hs : I s) : I t := by
  induction h with
  | refl => exact hs
  | tail _ hm ih => exact kept _ _ hm ih

/-! ## Shared operations -/

variable {a : Option Req} (s : State) (p : PortId) (tag : Byte) (pl : List Byte) (u : TallyId) (g : GroupId)

theorem State.respond_moves (r : Answer) : Moves a s (s.respond p tag r) :=
  .single (.engine p _ ⟨rfl, rfl, rfl⟩ rfl rfl)

theorem State.noteStep_moves (step : Option EndStep) : Moves a s (s.noteStep p step) :=
  .single (.engine p _ ⟨rfl, rfl, rfl⟩ rfl rfl)

theorem State.beginSessionEnd_moves (w : Work) : Moves a s (s.beginSessionEnd p w) :=
  .single (.engine p _ ⟨rfl, rfl, rfl⟩ rfl rfl)

theorem State.postList_moves (l : List Posting) : Moves a s (s.postList l) := by
  induction l generalizing s with
  | nil => exact .refl
  | cons e l ih => exact .head (.posted ..) (ih _)

theorem State.postTo_moves (ps : List PortId) (k : EventKind) (v : Subject) (d : Detail) :
    Moves a s (s.postTo ps k v d) := by
  rw [State.postTo_eq]
  exact s.postList_moves _

theorem State.evaluateWithEvents_moves : Moves a s (s.evaluateWithEvents u) := by
  rw [State.evaluateWithEvents_eq]
  exact .head (.evaluated u) (State.postList_moves _ _)

theorem State.touch_moves : Moves a s (s.touch u) := by
  unfold State.touch
  split
  · exact .single (.copied u ‹_›)
  · exact .refl

@[simp] theorem State.viewEntry_touch (h : HandleId) : (s.touch u).viewEntry p h = s.viewEntry p h := by
  simp [State.viewEntry]

theorem State.onHandle_moves (h : Option HandleId) (act : HandleId → ViewEntry → Reply)
    (moves : ∀ h e, s.viewEntry p h = some e → Moves a s (act h e).1) : Moves a s (s.onHandle p h act).1 := by
  unfold State.onHandle
  split
  · exact .refl
  · split
    · exact .refl
    · exact moves _ _ ‹_›

theorem State.asTallyAdmin_moves (r : Reply) (moves : Moves a s r.1) : Moves a s (s.asTallyAdmin p u r).1 := by
  unfold State.asTallyAdmin
  split
  · exact moves
  · exact .refl

theorem State.direct_moves (h : Option HandleId) (right : Rights → Bool) (act : State → TallyId → Reply)
    (moves : ∀ s u, Moves a s (act s u).1) : Moves a s (s.direct p h right act).1 := by
  refine s.onHandle_moves p h _ fun _ e _ => ?_
  split
  · exact (s.touch_moves e.tally).trans (moves _ _)
  · exact .refl

theorem State.onGroup_moves (o : Option GroupId) (act : GroupId → Reply) (moves : ∀ g, Moves a s (act g).1) :
    Moves a s (s.onGroup o act).1 := by
  unfold State.onGroup
  split
  · exact .refl
  · exact moves _

theorem State.asGroupAdmin_moves (r : Reply) (moves : Moves a s r.1) : Moves a s (s.asGroupAdmin p g r).1 := by
  unfold State.asGroupAdmin
  split
  · exact moves
  · exact .refl

/-! ## Sessions and event requests -/

theorem actHello_moves : Moves a s (actHello s p tag pl).1 := by
  unfold actHello
  split
  · exact .single (.sessionOpened p ‹_›)
  · exact s.beginSessionEnd_moves p _

theorem actHelloTaken_moves : Moves a s (actHelloTaken s p tag pl).1 := by
  unfold actHelloTaken
  split
  · exact .single (.engine p _ ⟨rfl, rfl, rfl⟩ rfl rfl)
  · exact s.beginSessionEnd_moves p _

theorem actSetMask_moves (online : (s.port p).session = .online) : Moves a s (actSetMask s p tag pl).1 := by
  unfold actSetMask
  split
  · exact .refl
  · exact .single (.masked p _ online)

theorem actTakeEvent_moves (online : (s.port p).session = .online) : Moves a s (actTakeEvent s p tag pl).1 := by
  unfold actTakeEvent
  split
  · exact .refl
  · exact .single (.eventTaken p _ _ online ‹_›)

theorem actAckEvent_moves (online : (s.port p).session = .online) : Moves a s (actAckEvent s p tag pl).1 := by
  unfold actAckEvent
  split
  · exact .refl
  · exact .single (.eventAcked p _ _ online ‹_›)

theorem State.openAfterEnd_moves : Moves a s (s.openAfterEnd p) := by
  unfold State.openAfterEnd
  split
  · exact .head (.sessionOpened p ‹_›) (State.respond_moves _ _ _ _)
  · exact .refl

/-- An action repeated over a list. -/
theorem Moves.foldl {α : Type} {f : State → α → State} (moves : ∀ s x, Moves a s (f s x)) (l : List α) (s : State) :
    Moves a s (l.foldl f s) := by
  induction l generalizing s with
  | nil => exact .refl
  | cons x l ih => exact (moves s x).trans (ih _)

theorem State.endReaders_moves : Moves a s (s.endReaders p) :=
  (Moves.foldl (fun _ g => .single (.readersLeft p g _)) _ s).trans (State.noteStep_moves _ _ _)

theorem State.vacateTally_moves : Moves a s (s.vacateTally p u) :=
  .head (.tallyVacated u) (State.postTo_moves _ _ _ _ _)

theorem State.endTallyAdmin_moves : Moves a s (s.endTallyAdmin p) :=
  .tail ((Moves.foldl (fun s u => s.vacateTally_moves p u) _ s).trans (State.noteStep_moves _ _ _)) .drawn

theorem State.vacateGroup_moves : Moves a s (s.vacateGroup p g) :=
  .head (.groupVacated g) (State.postTo_moves _ _ _ _ _)

theorem State.endGroupAdmin_moves : Moves a s (s.endGroupAdmin p) :=
  .tail ((Moves.foldl (fun s g => s.vacateGroup_moves p g) _ s).trans (State.noteStep_moves _ _ _)) .drawn

/-! ## Tally administration -/

theorem actDefine_moves : Moves (some .define) s (actDefine s p tag pl).1 := by
  unfold actDefine
  split
  · split
    · exact .refl
    · rename_i k g pol reset _ _ _ _ _ u hu
      have free : (s.tally u).state = .free := by simpa using List.find?_some hu
      exact .single (.defined rfl p u k g pol reset free)
  · exact .refl

theorem actRetire_moves : Moves (some .retire) s (actRetire s p tag pl).1 := by
  refine s.onHandle_moves p _ _ fun h e entry => s.asTallyAdmin_moves p _ _ ?_
  dsimp only
  split
  · exact .refl
  · split
    · exact .refl
    · rename_i isOpen holders
      obtain ⟨hb, hs⟩ := not_or.mp holders
      exact .single (.retired rfl p h e entry isOpen (not_lt.mp hb) (Nat.eq_zero_of_not_pos hs))

theorem actGrant_moves : Moves (some .grant) s (actGrant s p tag pl).1 := by
  unfold actGrant
  split
  · exact s.onHandle_moves p _ _ fun _ e _ => s.asTallyAdmin_moves p _ _ (.single (.granted rfl e.tally _ _))
  · exact .refl

theorem State.setTallyState_moves {h : HandleId} {e : ViewEntry} {st : TallyState}
    (entry : s.viewEntry p h = some e) (defined : st ≠ .free) : Moves a s (s.setTallyState e.tally st) :=
  .tail (s.touch_moves e.tally) (.stateSet p h e st (by simpa using entry) defined)

theorem actFreeze_moves : Moves a s (actFreeze s p tag pl).1 :=
  s.onHandle_moves p _ _ fun _ _ entry =>
    s.asTallyAdmin_moves p _ _ (s.setTallyState_moves p entry TallyState.noConfusion)

theorem actResume_moves : Moves a s (actResume s p tag pl).1 :=
  s.onHandle_moves p _ _ fun _ _ entry =>
    s.asTallyAdmin_moves p _ _ (s.setTallyState_moves p entry TallyState.noConfusion)

theorem actClaimTally_moves (online : (s.port p).session = .online) : Moves a s (actClaimTally s p tag pl).1 := by
  refine s.onHandle_moves p _ _ fun _ e _ => ?_
  dsimp only
  split
  · exact .refl
  · exact .single (.tallyClaimed p e.tally online)

@[simp] theorem Limit.evaluate_level (l : Limit) (d : Side) (v : Int) : (l.evaluate d v).1.level = l.level := by
  unfold Limit.evaluate; split <;> split <;> rfl

@[simp] theorem Limit.evaluate_hyst (l : Limit) (d : Side) (v : Int) : (l.evaluate d v).1.hyst = l.hyst := by
  unfold Limit.evaluate; split <;> split <;> rfl

theorem Tally.armedLimit_sound {x : Tally} {level : Int} {hyst : Nat} (d : Side) (hl : x.kind.holds level = true)
    (hh : hyst < 2 ^ 32) : (x.armedLimit d level hyst).Sound x.kind := by
  unfold Tally.armedLimit Limit.Sound
  split <;> simpa [hl] using hh

theorem actSetLimit_moves : Moves a s (actSetLimit s p tag pl).1 := by
  unfold actSetLimit
  split
  · rename_i d op level _ _ _
    refine s.onHandle_moves p _ _ fun _ e _ => s.asTallyAdmin_moves p _ _ ?_
    dsimp only
    split
    · exact .refl
    · rename_i kind
      cases op with
      | report => exact .refl
      | remove => exact .single (.limitSet e.tally d none kind (by simp))
      | set =>
        dsimp only
        split
        · rename_i hl
          refine .single (.limitSet e.tally d _ kind fun l' h => ?_)
          cases h
          exact Tally.armedLimit_sound d hl (fieldAt_lt pl 12 4)
        · exact .refl
  · exact .refl

/-! ## Views -/

theorem readWeight_sound {w : Nat} (h : readWeight (fieldAt pl 2 2) = some w) : weightSound w := by
  have := fieldAt_lt pl 2 2
  unfold readWeight at h
  split at h
  · cases h
  · cases h
    exact ⟨by omega, by omega⟩

theorem actBind_moves : Moves a s (actBind s p tag pl).1 := by
  unfold actBind
  split
  · rename_i h w _ hw
    dsimp only
    split
    · exact .refl
    · split
      · exact .refl
      · split
        · exact .refl
        · split
          · exact .refl
          · exact .single (.bound p h _ w ‹_› ‹_› ‹_› (readWeight_sound pl hw))
  · exact .refl

theorem actUnbind_moves : Moves a s (actUnbind s p tag pl).1 :=
  s.onHandle_moves p _ _ fun h e entry => .single (.unbound p h e entry)

/-! ## Contributions -/

theorem State.examineEntry_moves (h : Byte) (q : BitVec 32) : Moves a s (s.examineEntry p h q).1 := by
  unfold State.examineEntry State.checkEntry
  split
  · exact .refl
  · rename_i e he
    have entry : ∃ h, s.viewEntry p h = some e := by
      split at he
      · cases he
      · split at he
        · cases he
        · split at he
          · cases he; exact ⟨_, ‹_›⟩
          · cases he
    obtain ⟨h, entry⟩ := entry
    split
    · exact .single (.staged p h e q entry ‹_›)
    · exact .refl

theorem State.postLoop_moves (es : List (Byte × BitVec 32)) : Moves a s (s.postLoop p es).1 := by
  induction es generalizing s with
  | nil => exact .refl
  | cons e es ih =>
    simp only [State.postLoop]
    split
    · exact s.examineEntry_moves p _ _
    · exact (s.examineEntry_moves p _ _).trans (ih _)

theorem State.postProgress_moves (w : PostWork) (rest : List (Byte × BitVec 32)) (sts : List Status) :
    Moves a s (s.postProgress p w rest sts) := by
  unfold State.postProgress
  split
  · exact .single (.engine p _ ⟨rfl, rfl, rfl⟩ rfl rfl)
  · have ended : Move a s (s.setPort p { s.port p with posting := none }) := .engine p _ ⟨rfl, rfl, rfl⟩ rfl rfl
    dsimp only
    split
    · exact .head ended (State.respond_moves _ _ _ _)
    · exact .single ended

theorem State.postNext_moves : Moves a s (s.postNext p) := by
  unfold State.postNext
  split
  · exact .refl
  · split
    · exact s.postProgress_moves p _ _ _
    · dsimp only
      split <;> exact (s.examineEntry_moves p _ _).trans (State.postProgress_moves _ _ _ _ _)

theorem actDrain_moves : Moves a s (actDrain s p tag pl).1 := by
  unfold actDrain
  split
  · exact .refl
  · exact .single (.engine p _ ⟨rfl, rfl, rfl⟩ rfl rfl)

/-- Steps 1 to 4 of an apply: the copy step owed, the record the contribution leaves, then its events. -/
theorem State.applyContribution_moves {q : PortId} {e : Staged} (head : e ∈ (s.port q).fifo) :
    Moves a s (s.applyContribution e) := by
  have takes : ∀ y, ((s.touch e.tally).tally e.tally).takes e y →
      Moves a s ((s.touch e.tally).setTally e.tally y) := fun y hy =>
    .tail (s.touch_moves e.tally) (.contributed q e y (by simpa using head) hy)
  unfold State.applyContribution State.postRefused
  dsimp only
  split
  · exact .tail (takes _ (.inl ⟨‹_›, rfl⟩)) (.posted ..)
  · rename_i hf
    split
    · exact (takes _ (.inr ⟨hf, .inl rfl⟩)).trans (State.evaluateWithEvents_moves _ _)
    · exact .tail (takes _ (.inr ⟨hf, .inr rfl⟩)) (.posted ..)
    · exact (Relation.ReflTransGen.tail (takes _ (.inr ⟨hf, .inr rfl⟩)) (.posted ..)).trans
        (State.postTo_moves _ _ _ _ _)

/-- An apply leaves every FIFO as it is until its entry leaves (R54). -/
@[simp] theorem State.fifo_applyContribution (e : Staged) (q : PortId) :
    ((s.applyContribution e).port q).fifo = (s.port q).fifo := by
  have posted : ∀ (s : State) k v d, ((s.post e.port k v d).port q).fifo = (s.port q).fifo :=
    fun s k v d => (s.sameButEvents_post e.port q k v d).2.2.2.2.2
  unfold State.applyContribution State.postRefused
  dsimp only
  split
  · simp [posted]
  · split <;> simp [posted, State.evaluateWithEvents_eq, State.postTo_eq]

theorem State.drainDone_moves : Moves a s (s.drainDone p) := by
  unfold State.drainDone
  split
  · exact s.respond_moves p _ _
  · exact .refl

theorem State.serve_moves {e : Staged} {rest : List Staged} (head : (s.port p).fifo = e :: rest) :
    Moves a s (s.serve p e rest) := by
  have contributes : Moves a s (s.applyContribution e) := s.applyContribution_moves (q := p) (by simp [head])
  have leaves : Move a (s.applyContribution e) ((s.applyContribution e).leaveFifo p e rest) :=
    .unstaged p e rest (by simpa using head)
  exact .tail ((contributes.tail leaves).trans (State.drainDone_moves _ p)) (.pointed _)

theorem State.applyNext_moves : Moves a s s.applyNext := by
  unfold State.applyNext
  split
  · exact .refl
  · split
    · exact .refl
    · exact s.serve_moves _ ‹_›

/-! ## Direct access -/

theorem State.storeValue_moves (v : Option Int) (allowed : (s.tally u).kind.allows v) :
    Moves a s (s.storeValue u v) := by
  unfold State.storeValue
  split
  · exact .refl
  · exact .head (.valueStored u v allowed) (State.evaluateWithEvents_moves _ _)

theorem Tally.allows_emptyValue (x : Tally) : x.kind.allows x.emptyValue := by
  unfold Tally.emptyValue
  cases x.kind <;> exact ⟨by simp, fun w h => by cases h <;> decide⟩

theorem actRead_moves : Moves a s (actRead s p tag pl).1 := s.direct_moves p _ _ _ fun _ _ => .refl

theorem actTake_moves : Moves a s (actTake s p tag pl).1 :=
  s.direct_moves p _ _ _ fun s u => s.storeValue_moves u _ (Tally.allows_emptyValue _)

theorem actExchange_moves : Moves a s (actExchange s p tag pl).1 := by
  unfold actExchange
  split
  · refine s.direct_moves p _ _ _ fun s u => ?_
    dsimp only
    split
    · exact .refl
    · split
      · exact .refl
      · rename_i hh
        split
        · exact s.storeValue_moves u _ ⟨by simp, fun w h => by cases h; simpa using hh⟩
        · exact .refl
  · exact .refl

theorem actClearFlags_moves : Moves a s (actClearFlags s p tag pl).1 := by
  refine s.direct_moves p _ _ _ fun s u => ?_
  dsimp only
  split
  · exact .single (.flagsCleared u)
  · exact .refl

/-! ## Closes -/

/-- All that dropping the oldest records leaves as it is. -/
structure State.droppedOnly (s t : State) (g : GroupId) (k : Nat) : Prop where
  tally : ∀ u, t.tally u = s.tally u
  group : ∀ g, t.group g = s.group g
  ports : ∀ q, (s.port q).sameButEvents (t.port q)
  ring : t.ring g = (s.ring g).drop k
  freeCells : t.freeCells = s.freeCells + cellsHeld ((s.ring g).take k)

theorem State.dropOldest_droppedOnly : s.droppedOnly (s.dropOldest g) g 1 := by
  unfold State.dropOldest
  split
  · rename_i h
    exact ⟨fun _ => rfl, fun _ => rfl, fun _ => .refl _, by simp [h], by simp [h, cellsHeld]⟩
  · rename_i r rest h
    rw [State.postTo_eq]
    refine ⟨fun u => ?_, fun g => ?_, fun q => ?_, ?_, ?_⟩
    · rw [State.tally_postList]; rfl
    · rw [State.group_postList]; rfl
    · exact State.sameButEvents_postList _ q _
    · rw [State.ring_postList, h]
      exact State.ring_setRing_self s g rest
    · rw [State.freeCells_postList, h]
      simp [cellsHeld]

theorem State.dropMany_droppedOnly (k : Nat) : s.droppedOnly (s.dropMany g k) g k := by
  induction k generalizing s with
  | zero =>
    exact ⟨fun _ => rfl, fun _ => rfl, fun _ => .refl _, by simp [State.dropMany], by simp [State.dropMany, cellsHeld]⟩
  | succ k ih =>
    have one := s.dropOldest_droppedOnly g
    have more := ih (s.dropOldest g)
    refine ⟨fun u => (more.tally u).trans (one.tally u), fun g => (more.group g).trans (one.group g),
      fun q => (one.ports q).trans (more.ports q), ?_, ?_⟩
    · show ((s.dropOldest g).dropMany g k).ring g = _
      rw [more.ring, one.ring, List.drop_drop, Nat.add_comm]
    · show ((s.dropOldest g).dropMany g k).freeCells = _
      rw [more.freeCells, one.freeCells, one.ring, Nat.add_assoc]
      cases h : s.ring g <;> simp [cellsHeld]

theorem State.membersOf_dropMany (k : Nat) : (s.dropMany g k).membersOf g = s.membersOf g := by
  simp [State.membersOf, (s.dropMany_droppedOnly g k).tally]

theorem State.readersOf_dropMany (k : Nat) (l : List TallyId) : (s.dropMany g k).readersOf l = s.readersOf l := by
  have h := s.dropMany_droppedOnly g k
  have view : ∀ q, ((s.dropMany g k).port q).view = (s.port q).view := fun q => (h.ports q).2.2.2.2.1
  simp [State.readersOf, State.bound, State.rightsOf, h.tally, view]

theorem State.dropMany_moves (k : Nat) (isOpen : (s.group g).state ≠ .closing) : Moves a s (s.dropMany g k) := by
  induction k generalizing s with
  | zero => exact .refl
  | succ k ih =>
    refine Relation.ReflTransGen.trans ?_ (ih (s.dropOldest g) ?_)
    · unfold State.dropOldest
      split
      · exact .refl
      · exact .head (.oldestDropped g _ _ ‹_› isOpen) (State.postTo_moves _ _ _ _ _)
    · rwa [(s.dropOldest_droppedOnly g).group]

/-- Once the drops of an admission are made, the record has its place, its cells and a number of its own (R109,
R110). -/
theorem State.admission_admitted {m k : Nat} (h : s.admission g m = .admitted k) :
    ((s.ring g).drop k).length ≠ Config.ringPlaces ∧ m ≤ s.freeCells + cellsHeld ((s.ring g).take k) ∧
      ∀ r ∈ (s.ring g).drop k, r.interval ≠ (s.group g).interval := by
  unfold State.admission at h
  dsimp only at h
  split at h
  · unfold admitHold at h
    split at h
    · cases h
    · rename_i place
      split at h
      · cases h
      · rename_i number
        split at h
        · cases h
        · rename_i cells
          cases h
          exact ⟨by simpa using place, by simpa [cellsHeld] using cells, by simpa using number⟩
  · unfold admitDiscard at h
    split at h
    · rename_i k' hk
      cases h
      have suffices' := List.find?_some hk
      simp only [dropsSuffice, Bool.and_eq_true, decide_eq_true_eq, Bool.not_eq_true', List.any_eq_false,
        beq_iff_eq] at suffices'
      obtain ⟨⟨place, cells⟩, number⟩ := suffices'
      exact ⟨place.ne, cells, number⟩
    · cases h

theorem State.attemptClose_moves (c : Cause) (isOpen : (s.group g).state ≠ .closing) :
    Moves a s (s.attemptClose g c).1 := by
  unfold State.attemptClose
  dsimp only
  split
  · exact .single (.closedUnobserved g isOpen)
  · rename_i observed
    split
    · rename_i k admitted
      have dropped := s.dropMany_droppedOnly g k
      obtain ⟨place, cells, number⟩ := s.admission_admitted g admitted
      have start := Move.closeStarted (a := a) (s := s.dropMany g k) g c
      rw [State.membersOf_dropMany, State.readersOf_dropMany, dropped.ring, dropped.freeCells, dropped.group] at start
      exact .tail (s.dropMany_moves g k isOpen) (start isOpen (by simp_all) place cells number)
    · exact .refl
    · exact .refl

theorem actClose_moves : Moves a s (actClose s p tag pl).1 := by
  refine s.onGroup_moves _ _ fun g => s.asGroupAdmin_moves p g _ ?_
  split
  · exact .refl
  · rename_i isOpen
    have attempt := s.attemptClose_moves (a := a) g .manual isOpen
    dsimp only
    split
    · exact attempt
    · exact attempt
    · exact .refl
    · exact .refl

theorem State.missClose_moves (r : MissedReason) : Moves a s (s.missClose g r) := by
  unfold State.missClose
  dsimp only
  split
  · exact .single (.missCounted g)
  · exact .head (.missCounted g) (.single (.posted ..))

theorem State.timedAttempt_moves : Moves a s (s.timedAttempt g) := by
  unfold State.timedAttempt
  split
  · exact s.missClose_moves g _
  · rename_i isOpen
    have attempt := s.attemptClose_moves (a := a) g .timed isOpen
    dsimp only
    split
    · exact attempt
    · exact attempt
    · exact s.missClose_moves g _
    · exact s.missClose_moves g _

theorem State.handleEdge_moves : Moves a s (s.handleEdge g) := by
  unfold State.handleEdge
  dsimp only
  split
  · exact .refl
  · rename_i owed
    have handled : Move a s (s.setGroup g (s.group g).afterEdge) := .edgeHandled g owed
    unfold Group.afterEdge at handled
    split
    · simpa [*] using Relation.ReflTransGen.single handled
    · split
      · simpa [*] using Relation.ReflTransGen.single handled
      · refine .head ?_ (State.timedAttempt_moves _ g)
        simpa [*] using handled

theorem State.copierAct_moves : Moves a s (s.copierAct g) := by
  unfold State.copierAct
  split
  · split
    · exact .refl
    · exact .tail (s.touch_moves _) (.walked g (by simpa))
  · exact .refl

theorem State.endClose_moves (walked : s.walkEnded g = true) : Moves a s (s.endClose g) := by
  unfold State.endClose
  split
  · exact .refl
  · rename_i r filling
    dsimp only
    split
    · exact .single (.closeDiscarded g r filling ‹_› walked)
    · rename_i keep
      exact .head (.closeReady g r filling (by simpa using keep) walked) (State.postTo_moves _ _ _ _ _)

/-! ## Group and snapshot requests -/

theorem actClaimGroup_moves (online : (s.port p).session = .online) : Moves a s (actClaimGroup s p tag pl).1 := by
  refine s.onGroup_moves _ _ fun g => ?_
  dsimp only
  split
  · exact .refl
  · exact .single (.groupClaimed p g online)

theorem actSetGroup_moves : Moves a s (actSetGroup s p tag pl).1 := by
  unfold actSetGroup
  split
  · exact .refl
  · exact s.onGroup_moves _ _ fun g => s.asGroupAdmin_moves p g _ (.single (.groupSet g _ _ (fieldAt_lt pl 1 2)))

theorem actGroupStatus_moves : Moves a s (actGroupStatus s p tag pl).1 := s.onGroup_moves _ _ fun _ => .refl

theorem actSnapList_moves : Moves a s (actSnapList s p tag pl).1 := by
  unfold actSnapList
  split <;> exact .refl

theorem actReadSnap_moves : Moves a s (actReadSnap s p tag pl).1 := by
  have same : (actReadSnap s p tag pl).1 = s := by
    unfold actReadSnap State.reply State.deny
    grind
  rw [same]

theorem actRelease_moves : Moves a s (actRelease s p tag pl).1 := by
  unfold actRelease
  dsimp only
  split
  · exact .refl
  · split
    · exact .refl
    · split
      · exact .refl
      · exact .single (.readersLeft p _ _)

/-! ## Every command -/

/-- What a block does for a request of an ONLINE port, or for HELLO, is a sequence of moves. -/
theorem servesAs.moves {s : State} {p : PortId} {r : Req} {act : State → PortId → Byte → List Byte → Reply}
    (h : servesAs r act) (online : (s.port p).session = .online ∨ r = .hello) (tag : Byte) (pl : List Byte) :
    Moves (some r) s (act s p tag pl).1 := by
  obtain rfl | ⟨rfl, rfl⟩ | ⟨rfl, rfl⟩ := h
  · cases r
    case hello => exact actHello_moves s p tag pl
    case setMask => exact actSetMask_moves s p tag pl (by simpa using online)
    case takeEvent => exact actTakeEvent_moves s p tag pl (by simpa using online)
    case ackEvent => exact actAckEvent_moves s p tag pl (by simpa using online)
    case claimTally => exact actClaimTally_moves s p tag pl (by simpa using online)
    case claimGroup => exact actClaimGroup_moves s p tag pl (by simpa using online)
    case leave => exact s.beginSessionEnd_moves p _
    case define => exact actDefine_moves s p tag pl
    case retire => exact actRetire_moves s p tag pl
    case grant => exact actGrant_moves s p tag pl
    case freeze => exact actFreeze_moves s p tag pl
    case resume => exact actResume_moves s p tag pl
    case setLimit => exact actSetLimit_moves s p tag pl
    case bind => exact actBind_moves s p tag pl
    case unbind => exact actUnbind_moves s p tag pl
    case post => exact s.postLoop_moves p _
    case drain => exact actDrain_moves s p tag pl
    case read => exact actRead_moves s p tag pl
    case take => exact actTake_moves s p tag pl
    case exchange => exact actExchange_moves s p tag pl
    case clearFlags => exact actClearFlags_moves s p tag pl
    case setGroup => exact actSetGroup_moves s p tag pl
    case close => exact actClose_moves s p tag pl
    case groupStatus => exact actGroupStatus_moves s p tag pl
    case snapList => exact actSnapList_moves s p tag pl
    case readSnap => exact actReadSnap_moves s p tag pl
    case release => exact actRelease_moves s p tag pl
  · exact actHelloTaken_moves s p tag pl
  · exact .single (.engine p _ ⟨rfl, rfl, rfl⟩ rfl rfl)

theorem Examined.moves {s t : State} {p : PortId} {tag : Byte} (h : Examined s p tag t) : ∃ a, Moves a s t := by
  cases h with
  | refused st => exact ⟨none, s.respond_moves p tag _⟩
  | answered r pl act t b online _ serves acts =>
    have moved := serves.moves online tag pl
    rw [acts] at moved
    exact ⟨some r, moved.trans (t.respond_moves p tag b)⟩
  | waits r pl act t online _ serves acts =>
    have moved := serves.moves online tag pl
    rw [acts] at moved
    exact ⟨some r, moved⟩

/-- Bits that leave the tables are a move of the port's engine. -/
theorem Port.sameBesideLink.move {s : State} {p : PortId} {y : Port} (h : (s.port p).sameBesideLink y) :
    Move a s (s.setPort p y) :=
  .engine p y h.2.2.2.2.2 h.1 h.2.1

theorem Transacted.moves {s t : State} {p : PortId} (h : Transacted s p t) : ∃ a, Moves a s t := by
  cases h with
  | unheard => exact ⟨none, .refl⟩
  | moved y h => exact ⟨none, .single h.1.move⟩
  | taken y tag t h examined =>
    obtain ⟨a, moved⟩ := examined.moves
    exact ⟨a, .head h.1.move moved⟩

theorem State.unlessReset_moves (f : State → State) (moves : Moves a s (f s)) : Moves a s (s.unlessReset f) := by
  unfold State.unlessReset
  split
  · exact .refl
  · exact moves

theorem State.whenDue_moves (step : EndStep) (f : State → State)
    (moves : (s.port p).sessionEnd = some step → Moves a s (f s)) : Moves a s (s.whenDue p step f) := by
  unfold State.whenDue
  split
  · rename_i h; exact moves h.1
  · exact .refl

theorem State.assertPrst_moves : Moves a s (s.assertPrst p) := by
  unfold State.assertPrst
  dsimp only
  split
  · exact .single (.engine p _ ⟨rfl, rfl, rfl⟩ rfl rfl)
  · split
    · exact .refl
    · refine .single (.engine p _ ?_ ?_ ?_) <;> unfold Port.portReset
      · split <;> exact ⟨rfl, rfl, rfl⟩
      · split <;> simp [*]
      · split <;> rfl

/-- The commands that run on no port's link, RESET# asserted apart, are moves that act on no request. -/
theorem exec_moves_internal (c : Instr) (internal : transactionPort c = none) (hc : c ≠ .resetAssert) :
    ∃ t, exec c s = .next t ∧ Moves none s t := by
  cases c
  case resetAssert => exact absurd rfl hc
  case helloOpenSession p => exact ⟨_, rfl, s.unlessReset_moves _ (s.openAfterEnd_moves p)⟩
  case sessionEndViews p =>
    exact ⟨_, rfl, s.unlessReset_moves _ (s.whenDue_moves p _ _ fun due => .single (.viewsEnded p due))⟩
  case sessionEndReaders p =>
    exact ⟨_, rfl, s.unlessReset_moves _ (s.whenDue_moves p _ _ fun _ => s.endReaders_moves p)⟩
  case sessionEndTallyAdmin p =>
    exact ⟨_, rfl, s.unlessReset_moves _ (s.whenDue_moves p _ _ fun _ => s.endTallyAdmin_moves p)⟩
  case sessionEndGroupAdmin p =>
    exact ⟨_, rfl, s.unlessReset_moves _ (s.whenDue_moves p _ _ fun _ => s.endGroupAdmin_moves p)⟩
  case sessionEndEvents p =>
    exact ⟨_, rfl, s.unlessReset_moves _ (s.whenDue_moves p _ _ fun due => .single (.eventsEnded p due))⟩
  case post p tag pl part =>
    cases part <;> cases internal
    exact ⟨_, rfl, s.unlessReset_moves _ (s.postNext_moves p)⟩
  case apply => exact ⟨_, rfl, s.unlessReset_moves _ s.applyNext_moves⟩
  case tick => exact ⟨_, rfl, s.unlessReset_moves _ (.single .ticked)⟩
  case timedCloseAttempt g => exact ⟨_, rfl, s.unlessReset_moves _ (s.handleEdge_moves g)⟩
  case copierStep g => exact ⟨_, rfl, s.unlessReset_moves _ (s.copierAct_moves g)⟩
  case closeEnd g =>
    refine ⟨_, rfl, s.unlessReset_moves _ ?_⟩
    split
    · exact s.endClose_moves g ‹_›
    · exact .refl
  case prstAssert p => exact ⟨_, rfl, s.assertPrst_moves p⟩
  case prstRelease p => exact ⟨_, rfl, .single (.engine p _ ⟨rfl, rfl, rfl⟩ rfl rfl)⟩
  case resetRelease => exact ⟨_, rfl, .single .resetReleased⟩
  all_goals cases internal

/-- Every command but RESET# asserted is a sequence of moves. -/
theorem exec_moves (c : Instr) (hc : c ≠ .resetAssert) : ∃ t a, exec c s = .next t ∧ Moves a s t := by
  cases h : transactionPort c with
  | none =>
    obtain ⟨t, he, moved⟩ := exec_moves_internal s c h hc
    exact ⟨t, none, he, moved⟩
  | some p =>
    obtain ⟨t, he, ht⟩ := exec_transacted c s h
    obtain ⟨a, moved⟩ := ht.moves
    exact ⟨t, a, he, moved⟩

/-- An invariant that every move keeps and that RESET# asserted establishes is kept by every step. -/
theorem step_keeps {I : State → Prop} (kept : ∀ a s t, Move a s t → I s → I t)
    (reset : ∀ s, I s → I s.assertReset) {s t : State} (hs : I s) (h : step s = .next t) : I t := by
  unfold step at h
  split at h
  · cases h; exact hs
  · rename_i c rest _
    have hq : I (s.setPending rest) := kept none _ _ (.queue rest) hs
    by_cases hc : c = .resetAssert
    · subst hc; cases h; exact reset _ hq
    · obtain ⟨t', a, he, moved⟩ := exec_moves (s.setPending rest) c hc
      rw [he] at h
      cases h
      exact moved.keeps (kept a) hq

end Sys2Proof.Machine

/-! O54: the bind and staged counts agree with the views and the FIFOs. The moves that touch no view, no FIFO and no
count keep this at once; each of the six others moves an entry and its count together. -/

namespace Sys2Proof.Machine

variable {a : Option Req} {s t : State} {p : PortId} {u : TallyId}

/-! ## The moves that leave entries and counts -/

/-- Views, FIFOs, bind counts and staged counts are left as they were, and no tally becomes FREE. -/
structure State.sameHoldings (s t : State) : Prop where
  bindCount : ∀ u, (t.tally u).bindCount = (s.tally u).bindCount
  stagedCount : ∀ u, (t.tally u).stagedCount = (s.tally u).stagedCount
  free : ∀ u, (t.tally u).state = .free → (s.tally u).state = .free
  view : ∀ p, (t.port p).view = (s.port p).view
  fifo : ∀ p, (t.port p).fifo = (s.port p).fifo

theorem State.CountsAgree.of_sameHoldings (h : s.CountsAgree) (hst : s.sameHoldings t) : t.CountsAgree := by
  obtain ⟨counts, unique⟩ := h
  have hv : ∀ p h, t.viewEntry p h = s.viewEntry p h := fun p h => by simp only [State.viewEntry, hst.view]
  refine ⟨fun u => ?_, fun p h h' e e' he he' => ?_⟩
  · obtain ⟨hb, hs, hf⟩ := counts u
    simp only [State.bindings, State.stagings, State.entriesNaming, hst.bindCount, hst.stagedCount, hst.view,
      hst.fifo] at hb hs ⊢
    exact ⟨hb, hs, fun h => hf (hst.free u h)⟩
  · rw [hv] at he he'
    exact unique p h h' e e' he he'

/-- A write of one tally that keeps its counts. -/
theorem State.sameHoldings_setTally (u : TallyId) (y : Tally) (hb : y.bindCount = (s.tally u).bindCount)
    (hs : y.stagedCount = (s.tally u).stagedCount) (hf : y.state = .free → (s.tally u).state = .free) :
    s.sameHoldings (s.setTally u y) := by
  refine ⟨fun v => ?_, fun v => ?_, fun v => ?_, fun _ => rfl, fun _ => rfl⟩ <;> rw [State.tally_setTally]
  · split <;> simp [*]
  · split <;> simp [*]
  · split
    · subst v; exact hf
    · exact id

/-- A write of one port that keeps its view and its FIFO. -/
theorem State.sameHoldings_setPort (p : PortId) (y : Port) (hv : y.view = (s.port p).view)
    (hf : y.fifo = (s.port p).fifo) : s.sameHoldings (s.setPort p y) := by
  refine ⟨fun _ => rfl, fun _ => rfl, fun _ => id, fun q => ?_, fun q => ?_⟩ <;> rw [State.port_setPort]
  · split <;> simp [*]
  · split <;> simp [*]

/-- A change of groups, rings or the model's own fields alone. -/
theorem State.sameHoldings_of_eq (ht : ∀ u, t.tally u = s.tally u) (hp : ∀ p, t.port p = s.port p) :
    s.sameHoldings t := by
  refine ⟨?_, ?_, ?_, ?_, ?_⟩ <;> simp [ht, hp]

theorem Tally.applyProduct_counts (x : Tally) (n : Int) : (x.applyProduct n).1.bindCount = x.bindCount ∧
    (x.applyProduct n).1.stagedCount = x.stagedCount ∧ ((x.applyProduct n).1.state = .free → x.state = .free) := by
  unfold Tally.applyProduct
  split
  · unfold Tally.applySumU; split
    · exact ⟨rfl, rfl, id⟩
    · split <;> exact ⟨rfl, rfl, id⟩
  · unfold Tally.applySumS; split
    · exact ⟨rfl, rfl, id⟩
    · split
      · exact ⟨rfl, rfl, id⟩
      · exact ⟨rfl, rfl, nofun⟩
  · unfold Tally.applyPeak; split <;> exact ⟨rfl, rfl, id⟩

theorem Tally.takes.counts {x y : Tally} {e : Staged} (h : x.takes e y) : y.bindCount = x.bindCount ∧
    y.stagedCount = x.stagedCount ∧ (y.state = .free → x.state = .free) := by
  obtain ⟨-, rfl⟩ | ⟨-, rfl | rfl⟩ := h
  · exact ⟨rfl, rfl, id⟩
  · exact x.applyProduct_counts e.product
  · exact x.applyProduct_counts e.product

/-! ## The moves of entries and counts -/

/-- A sum over the ports of which one term changes. -/
theorem sum_ports_eq {f g : PortId → Nat} (p : PortId) (h : ∀ q, q ≠ p → f q = g q) :
    ((List.finRange 4).map f).sum + g p = ((List.finRange 4).map g).sum + f p := by
  have rest : ∑ q ∈ Finset.univ.erase p, f q = ∑ q ∈ Finset.univ.erase p, g q :=
    Finset.sum_congr rfl fun q hq => h q (Finset.ne_of_mem_erase hq)
  have split : ∀ k : PortId → Nat, k p + ∑ q ∈ Finset.univ.erase p, k q = ((List.finRange 4).map k).sum :=
    fun k => (Finset.add_sum_erase _ k (Finset.mem_univ p)).trans (Fin.sum_univ_def k)
  rw [← split f, ← split g, rest]
  omega

@[simp] theorem entryNames_none : entryNames u none = false := rfl

@[simp] theorem entryNames_some (e : ViewEntry) : entryNames u (some e) = (e.tally == u) := rfl

@[simp] theorem State.tally_setView (p : PortId) (h : HandleId) (o : Option ViewEntry) :
    (s.setView p h o).tally u = s.tally u := rfl

/-- A write of one view entry moves the tally's bindings by the old and the new entry. -/
theorem State.bindings_setView (p : PortId) (h : HandleId) (o : Option ViewEntry) (u : TallyId) :
    (s.setView p h o).bindings u + (entryNames u (s.viewEntry p h)).toNat =
      s.bindings u + (entryNames u o).toNat := by
  have one : (s.setView p h o).entriesNaming p u + (entryNames u (s.viewEntry p h)).toNat =
      s.entriesNaming p u + (entryNames u o).toNat := by
    have held : h.val < (s.port p).view.toList.length := by simp
    have here : (s.port p).view.toList[h.val] = s.viewEntry p h := by simp [State.viewEntry]
    have old : (entryNames u (s.viewEntry p h)).toNat ≤ s.entriesNaming p u := by
      cases hn : entryNames u (s.viewEntry p h) with
      | false => simp
      | true => exact List.countP_pos_iff.mpr ⟨_, List.getElem_mem held, by rw [here, hn]⟩
    have new : (s.setView p h o).entriesNaming p u =
        s.entriesNaming p u - (entryNames u (s.viewEntry p h)).toNat + (entryNames u o).toNat := by
      simp only [State.entriesNaming, State.setView, State.port_setPort_self, Port.driveAlert_view, Vector.toList_set]
      rw [List.countP_set held, here]
      cases entryNames u (s.viewEntry p h) <;> cases entryNames u o <;> rfl
    omega
  have others : ∀ q, q ≠ p → (s.setView p h o).entriesNaming q u = s.entriesNaming q u := by
    intro q hq
    simp [State.entriesNaming, State.setView, hq]
  have sum := sum_ports_eq p others
  unfold State.bindings
  omega

/-- A new FIFO of one port moves the tally's stagings by what names the tally in the old and the new one. -/
theorem State.stagings_setFifo (p : PortId) (l : List Staged) (u : TallyId) :
    (s.setPort p { s.port p with fifo := l }).stagings u + (s.port p).fifo.countP (fun e => e.tally == u) =
      s.stagings u + l.countP (fun e => e.tally == u) := by
  have others : ∀ q, q ≠ p → ((s.setPort p { s.port p with fifo := l }).port q).fifo.countP (fun e => e.tally == u) =
      (s.port q).fifo.countP fun e => e.tally == u := by
    intro q hq
    simp [hq]
  have sum := sum_ports_eq p others
  simpa [State.stagings] using sum

theorem State.viewEntry_setView (p : PortId) (h : HandleId) (o : Option ViewEntry) (q : PortId) (k : HandleId) :
    (s.setView p h o).viewEntry q k = if q = p ∧ k = h then o else s.viewEntry q k := by
  unfold State.viewEntry State.setView
  rw [State.port_setPort]
  by_cases hq : q = p
  · subst hq
    simp [Vector.getElem_set, Fin.ext_iff, eq_comm]
  · simp [hq]

/-- A removed entry leaves a port with one handle for each tally. -/
theorem State.CountsAgree.unique_setView_none (hs : s.CountsAgree) (p : PortId) (h : HandleId) :
    ∀ q k k' e e', (s.setView p h none).viewEntry q k = some e → (s.setView p h none).viewEntry q k' = some e' →
      e.tally = e'.tally → k = k' := by
  intro q k k' e e' hk hk' he
  rw [State.viewEntry_setView] at hk hk'
  split at hk
  · cases hk
  · split at hk'
    · cases hk'
    · exact hs.2 q k k' e e' hk hk' he

@[simp] theorem State.bindings_setTally (y : Tally) (v : TallyId) : (s.setTally u y).bindings v = s.bindings v := rfl

@[simp] theorem State.stagings_setTally (y : Tally) (v : TallyId) : (s.setTally u y).stagings v = s.stagings v := rfl

@[simp] theorem State.stagings_setView (p : PortId) (h : HandleId) (o : Option ViewEntry) (v : TallyId) :
    (s.setView p h o).stagings v = s.stagings v := by
  have fifo : ∀ q, ((s.setView p h o).port q).fifo = (s.port q).fifo := by
    intro q
    rw [State.setView, State.port_setPort]
    split <;> simp [*]
  simp [State.stagings, fifo]

@[simp] theorem State.bindings_setFifo (p : PortId) (l : List Staged) (v : TallyId) :
    (s.setPort p { s.port p with fifo := l }).bindings v = s.bindings v := by
  have view : ∀ q, ((s.setPort p { s.port p with fifo := l }).port q).view = (s.port q).view := by
    intro q
    rw [State.port_setPort]
    split <;> simp [*]
  simp [State.bindings, State.entriesNaming, view]

@[simp] theorem State.viewEntry_setFifo (p : PortId) (l : List Staged) (q : PortId) (k : HandleId) :
    (s.setPort p { s.port p with fifo := l }).viewEntry q k = s.viewEntry q k := by
  unfold State.viewEntry
  rw [State.port_setPort]
  split <;> simp [*]

/-- A tally that a view entry names is bound, so it is not FREE. -/
theorem State.CountsAgree.bindCount_pos (hs : s.CountsAgree) {h : HandleId} {e : ViewEntry}
    (entry : s.viewEntry p h = some e) : 0 < (s.tally e.tally).bindCount := by
  have named : entryNames e.tally (s.viewEntry p h) = true := by simp [entry, entryNames]
  have sum := s.bindings_setView p h none e.tally
  rw [named] at sum
  rw [(hs.1 e.tally).1]
  simp [entryNames] at sum
  omega

theorem State.CountsAgree.not_free (hs : s.CountsAgree) {h : HandleId} {e : ViewEntry}
    (entry : s.viewEntry p h = some e) : (s.tally e.tally).state ≠ .free := by
  intro free
  have pos := hs.bindCount_pos entry
  have zero := ((hs.1 e.tally).2.2 free).1
  omega

theorem State.CountsAgree.bound (hs : s.CountsAgree) {h : HandleId} {w : Nat} (vacant : s.viewEntry p h = none)
    (defined : (s.tally u).state ≠ .free) (unnamed : s.handleOf p u = none) :
    ((s.setView p h (some ⟨u, w⟩)).countBind u).CountsAgree := by
  refine ⟨fun v => ?_, fun q k k' e e' hk hk' he => ?_⟩
  · obtain ⟨hb, hst, hf⟩ := hs.1 v
    have sum := s.bindings_setView p h (some ⟨u, w⟩) v
    rw [vacant] at sum
    simp only [State.countBind, State.bindings_setTally, State.stagings_setTally, State.stagings_setView]
    rw [State.tally_setTally]
    by_cases hv : v = u
    · subst hv
      simp_all
    · have : ¬u = v := fun h => hv h.symm
      simp_all
  · have none_names : ∀ k e, s.viewEntry p k = some e → e.tally ≠ u := by
      intro k e hk
      have := List.find?_eq_none.mp unnamed k (List.mem_finRange k)
      simpa [hk, entryNames] using this
    have hk : (s.setView p h (some ⟨u, w⟩)).viewEntry q k = some e := hk
    have hk' : (s.setView p h (some ⟨u, w⟩)).viewEntry q k' = some e' := hk'
    rw [State.viewEntry_setView] at hk hk'
    split at hk <;> split at hk'
    · rename_i here here'
      exact here.2.trans here'.2.symm
    · rename_i here _
      cases hk
      exact absurd he.symm (none_names k' e' (here.1 ▸ hk'))
    · rename_i _ here
      cases hk'
      exact absurd he (none_names k e (here.1 ▸ hk))
    · exact hs.2 q k k' e e' hk hk' he

theorem State.CountsAgree.unbound (hs : s.CountsAgree) {h : HandleId} {e : ViewEntry}
    (entry : s.viewEntry p h = some e) : ((s.setView p h none).countUnbind e.tally).CountsAgree := by
  refine ⟨fun v => ?_, hs.unique_setView_none p h⟩
  obtain ⟨hb, hst, hf⟩ := hs.1 v
  have sum := s.bindings_setView p h none v
  rw [entry] at sum
  simp only [State.countUnbind, State.bindings_setTally, State.stagings_setTally, State.stagings_setView]
  rw [State.tally_setTally]
  by_cases hv : v = e.tally
  · subst hv
    simp_all
    omega
  · have other : (e.tally == v) = false := by simpa using Ne.symm hv
    simp_all

theorem State.CountsAgree.retired (hs : s.CountsAgree) {h : HandleId} {e : ViewEntry}
    (entry : s.viewEntry p h = some e) (unbound : (s.tally e.tally).bindCount ≤ 1)
    (unstaged : (s.tally e.tally).stagedCount = 0) :
    ((s.setView p h none).setTally e.tally Tally.cleared).CountsAgree := by
  refine ⟨fun v => ?_, hs.unique_setView_none p h⟩
  obtain ⟨hb, hst, hf⟩ := hs.1 v
  have sum := s.bindings_setView p h none v
  rw [entry] at sum
  simp only [State.bindings_setTally, State.stagings_setTally, State.stagings_setView]
  rw [State.tally_setTally]
  by_cases hv : v = e.tally
  · subst hv
    simp_all [Tally.cleared]
    omega
  · have other : (e.tally == v) = false := by simpa using Ne.symm hv
    simp_all

theorem State.CountsAgree.staged (hs : s.CountsAgree) {h : HandleId} {e : ViewEntry} {x : Staged}
    (entry : s.viewEntry p h = some e) (hx : x.tally = e.tally) : (s.stage p x).CountsAgree := by
  have named := hs.not_free entry
  refine ⟨fun v => ?_, ?_⟩
  · obtain ⟨hb, hst, hf⟩ := hs.1 v
    have sum := s.stagings_setFifo p ((s.port p).fifo ++ [x]) v
    rw [List.countP_append, List.countP_singleton] at sum
    simp only [State.stage, State.bindings_setTally, State.stagings_setTally, State.bindings_setFifo,
      State.tally_setPort]
    rw [State.tally_setTally]
    by_cases hv : v = x.tally
    · subst hv
      simp_all
      omega
    · have : ¬x.tally = v := fun h => hv h.symm
      simp_all
  · intro q k k' e e' hk hk'
    have unique := hs.2 q k k' e e'
    rw [← s.viewEntry_setFifo p ((s.port p).fifo ++ [x]), ← s.viewEntry_setFifo p ((s.port p).fifo ++ [x])] at unique
    exact unique hk hk'

theorem State.CountsAgree.unstaged (hs : s.CountsAgree) {x : Staged} {rest : List Staged}
    (head : (s.port p).fifo = x :: rest) : (s.leaveFifo p x rest).CountsAgree := by
  refine ⟨fun v => ?_, ?_⟩
  · obtain ⟨hb, hst, hf⟩ := hs.1 v
    have sum := s.stagings_setFifo p rest v
    rw [head, List.countP_cons] at sum
    simp only [State.leaveFifo, State.bindings_setTally, State.stagings_setTally, State.bindings_setFifo,
      State.tally_setPort]
    rw [State.tally_setTally]
    by_cases hv : v = x.tally
    · subst hv
      simp_all
      omega
    · have other : (x.tally == v) = false := by simpa using Ne.symm hv
      simp_all
  · intro q k k' e e' hk hk'
    have unique := hs.2 q k k' e e'
    rw [← s.viewEntry_setFifo p rest, ← s.viewEntry_setFifo p rest] at unique
    exact unique hk hk'

theorem State.port_endViews (p q : PortId) : (s.endViews p).port q =
    if q = p then ({ s.port p with view := Vector.replicate 64 none, sessionEnd := some .readers } : Port).driveAlert
    else s.port q := by
  rw [State.endViews, State.port_setPort]
  rfl

theorem State.viewEntry_endViews (p q : PortId) (h : HandleId) :
    (s.endViews p).viewEntry q h = if q = p then none else s.viewEntry q h := by
  unfold State.viewEntry
  rw [State.port_endViews]
  split <;> simp

theorem State.tally_endViews (p : PortId) (u : TallyId) : (s.endViews p).tally u =
    { s.tally u with bindCount := (s.tally u).bindCount - s.entriesNaming p u } := by
  simp [State.endViews]

theorem State.bindings_endViews (p : PortId) (u : TallyId) :
    (s.endViews p).bindings u + s.entriesNaming p u = s.bindings u := by
  have others : ∀ q, q ≠ p → (s.endViews p).entriesNaming q u = s.entriesNaming q u := by
    intro q hq
    simp [State.entriesNaming, State.port_endViews, hq]
  have gone : (s.endViews p).entriesNaming p u = 0 := by
    simp [State.entriesNaming, State.port_endViews]
  have sum := sum_ports_eq p others
  rw [gone] at sum
  exact sum

theorem State.CountsAgree.viewsEnded (hs : s.CountsAgree) (p : PortId) : (s.endViews p).CountsAgree := by
  have fifo : ∀ q, ((s.endViews p).port q).fifo = (s.port q).fifo := by
    intro q
    rw [State.port_endViews]
    split <;> simp [*]
  refine ⟨fun v => ?_, fun q k k' e e' hk hk' he => ?_⟩
  · obtain ⟨hb, hst, hf⟩ := hs.1 v
    have sum := s.bindings_endViews p v
    simp only [State.stagings, fifo, State.tally_endViews] at hst ⊢
    refine ⟨by omega, hst, fun h => ?_⟩
    obtain ⟨zb, zs⟩ := hf h
    omega
  · rw [State.viewEntry_endViews] at hk hk'
    split at hk
    · cases hk
    · exact hs.2 q k k' e e' hk (by simpa [*] using hk') he

/-! ## Every step -/

/-- Empty views, empty FIFOs and cleared records agree. -/
theorem State.CountsAgree.of_cleared (ht : ∀ u, s.tally u = Tally.cleared)
    (hv : ∀ p, (s.port p).view = Vector.replicate 64 none) (hf : ∀ p, (s.port p).fifo = []) : s.CountsAgree := by
  have nothing : ∀ p h, s.viewEntry p h = none := by simp [State.viewEntry, hv]
  refine ⟨fun u => ?_, fun p h h' e e' he => by simp [nothing] at he⟩
  have unbound : ∀ p, s.entriesNaming p u = 0 := by simp [State.entriesNaming, hv]
  simp [ht, Tally.cleared, State.bindings, State.stagings, unbound, hf]

@[simp] theorem State.tally_assertReset (u : TallyId) : s.assertReset.tally u = Tally.cleared := by
  simp [State.tally, State.assertReset, State.reset]

@[simp] theorem State.port_assertReset (p : PortId) : s.assertReset.port p = (s.port p).deviceReset :=
  tabulate_get _ p

@[simp] theorem State.group_assertReset (g : GroupId) : s.assertReset.group g = Group.atReset := by
  simp [State.group, State.assertReset, State.reset]

@[simp] theorem State.ring_assertReset (g : GroupId) : s.assertReset.ring g = [] := by
  simp [State.ring, State.assertReset, State.reset]

theorem State.CountsAgree.assertReset (s : State) : s.assertReset.CountsAgree :=
  .of_cleared (by simp) (by simp [Port.deviceReset, Port.atReset]) (by simp [Port.deviceReset, Port.atReset])

@[simp] theorem State.tally_unobservedClose (g : GroupId) (u : TallyId) : (s.unobservedClose g).tally u =
    if (s.tally u).defined && (s.tally u).group == g then (s.tally u).startInterval ((s.group g).interval + 1)
    else s.tally u := by
  simp [State.unobservedClose]

theorem State.sameHoldings_unobservedClose (g : GroupId) : s.sameHoldings (s.unobservedClose g) := by
  refine ⟨fun u => ?_, fun u => ?_, fun u => ?_, fun _ => rfl, fun _ => rfl⟩ <;>
    rw [State.tally_unobservedClose] <;> split <;> simp

theorem State.tally_copyStep (u v : TallyId) : (s.copyStep u).tally v =
    if v = u then (s.tally u).startInterval (s.group (s.tally u).group).interval else s.tally v := by
  rw [State.copyStep, State.tally_setTally]
  rfl

theorem State.sameHoldings_copyStep (u : TallyId) : s.sameHoldings (s.copyStep u) := by
  refine ⟨fun v => ?_, fun v => ?_, fun v => ?_, fun _ => rfl, fun _ => rfl⟩ <;>
    rw [State.tally_copyStep] <;> split <;> simp [*]

/-- Every move keeps the counts in agreement with the views and the FIFOs (R18, R27, R48). -/
theorem Move.keeps_countsAgree (h : Move a s t) (hs : s.CountsAgree) : t.CountsAgree := by
  cases h
  case bound vacant defined unnamed _ => exact hs.bound vacant defined unnamed
  case unbound entry => exact hs.unbound entry
  case staged entry _ => exact hs.staged entry rfl
  case unstaged head => exact hs.unstaged head
  case retired entry _ unbound unstaged => exact hs.retired entry unbound unstaged
  case viewsEnded p _ => exact hs.viewsEnded p
  case defined p u k g pol reset free =>
    obtain ⟨zb, zs⟩ := (hs.1 u).2.2 free
    exact hs.of_sameHoldings (s.sameHoldings_setTally u _ zb.symm zs.symm fun _ => free)
  case engine p y tables _ _ => exact hs.of_sameHoldings (s.sameHoldings_setPort p y tables.1 tables.2.1)
  case sessionOpened p _ | eventsEnded p _ | masked p _ _ | eventTaken p _ _ _ _ | eventAcked p _ _ _ _ =>
    exact hs.of_sameHoldings (s.sameHoldings_setPort p _ rfl rfl)
  case posted p k v d =>
    have kept := fun q => s.sameButEvents_post p q k v d
    exact hs.of_sameHoldings ⟨by simp, by simp, by simp, fun q => (kept q).2.2.2.2.1, fun q => (kept q).2.2.2.2.2⟩
  case contributed takes =>
    obtain ⟨hb, hst, hf⟩ := takes.counts
    exact hs.of_sameHoldings (s.sameHoldings_setTally _ _ hb hst hf)
  case stateSet e st entry defined =>
    exact hs.of_sameHoldings (s.sameHoldings_setTally e.tally _ rfl rfl fun free => absurd free defined)
  case limitSet u d l _ _ =>
    cases d <;> exact hs.of_sameHoldings (s.sameHoldings_setTally u _ rfl rfl id)
  case evaluated u => exact hs.of_sameHoldings (s.sameHoldings_setTally u _ (by simp) (by simp) (by simp))
  case granted u _ _ | tallyClaimed u _ | tallyVacated u | valueStored u _ _ | flagsCleared u =>
    exact hs.of_sameHoldings (s.sameHoldings_setTally u _ rfl rfl id)
  case copied u _ => exact hs.of_sameHoldings (s.sameHoldings_copyStep u)
  case closedUnobserved g _ => exact hs.of_sameHoldings (s.sameHoldings_unobservedClose g)
  all_goals exact hs.of_sameHoldings (State.sameHoldings_of_eq (fun _ => rfl) fun _ => rfl)

/-- Settles O54: each move of a command keeps the agreement, and RESET# establishes it. -/
theorem everyStepKeepsCountsAgree : Obligations.EveryStepKeepsCountsAgree :=
  fun _ _ hs h => step_keeps (fun _ _ _ m => m.keeps_countsAgree) (fun s _ => .assertReset s) hs h

end Sys2Proof.Machine

/-! O59: the numbers of every record stay in their ranges. The bounds on bind and staged counts follow from the views
and the FIFOs (O54); all the others speak of one record at a time, and each move keeps them. -/

namespace Sys2Proof.Machine

variable {a : Option Req} {s t : State} {p : PortId} {u : TallyId} {g : GroupId}

/-! ## Ranges of a tally record -/

/-- The ranges of a tally record, but for its bind count and staged count. -/
structure Tally.InRange (x : Tally) : Prop where
  value : x.kind.allows x.value
  count : x.count < 2 ^ 32
  rollover : x.rollover < 256
  rejected : x.rejected < 256
  dropped : x.dropped < 256
  peak : x.kind = .peak → x.upper = none ∧ x.lower = none
  upper : ∀ l, x.upper = some l → l.Sound x.kind
  lower : ∀ l, x.lower = some l → l.Sound x.kind

theorem Tally.fieldsSound_iff (x : Tally) :
    x.FieldsSound ↔ x.InRange ∧ x.bindCount ≤ 4 ∧ x.stagedCount ≤ 32 := by
  constructor
  · rintro ⟨hn, hv, hc, hr, hj, hd, hb, hs, hp, hu, hl⟩
    exact ⟨⟨⟨hn, hv⟩, hc, hr, hj, hd, hp, hu, hl⟩, hb, hs⟩
  · rintro ⟨h, hb, hs⟩
    exact ⟨h.value.1, h.value.2, h.count, h.rollover, h.rejected, h.dropped, hb, hs, h.peak, h.upper, h.lower⟩

theorem saturate_lt {top n : Nat} (h : n < top + 1) : saturate top n < top + 1 := by
  unfold saturate; split <;> omega

theorem Kind.holds_sumU (v : Int) : Kind.sumU.holds v = true ↔ 0 ≤ v ∧ v < 18446744073709551616 := by
  rw [Kind.holds, Bool.and_eq_true, decide_eq_true_iff, decide_eq_true_iff, maxUnsigned]
  omega

theorem Kind.holds_sumS (v : Int) :
    Kind.sumS.holds v = true ↔ -9223372036854775808 ≤ v ∧ v < 9223372036854775808 := by
  rw [Kind.holds, Bool.and_eq_true, decide_eq_true_iff, decide_eq_true_iff, maxSigned, minSigned]
  omega

theorem Kind.holds_peak (v : Int) :
    Kind.peak.holds v = true ↔ -9223372036854775808 ≤ v ∧ v < 9223372036854775808 := Kind.holds_sumS v

theorem Kind.holds_range {k : Kind} {v : Int} (h : k.holds v = true) : -2 ^ 63 ≤ v ∧ v < 2 ^ 64 := by
  cases k
  · have := (Kind.holds_sumU v).mp h; omega
  · have := (Kind.holds_sumS v).mp h; omega
  · have := (Kind.holds_peak v).mp h; omega

theorem Kind.allows_zero {k : Kind} : k.allows (some 0) := ⟨nofun, fun w h => by cases h; cases k <;> decide⟩

theorem Kind.allows_some {k : Kind} {v : Int} (h : k.holds v = true) : k.allows (some v) :=
  ⟨nofun, fun w hw => by cases hw; exact h⟩

theorem Tally.InRange.cleared : Tally.cleared.InRange :=
  ⟨Kind.allows_zero, by decide, by decide, by decide, by decide, nofun, nofun, nofun⟩

section
variable {x : Tally} (h : x.InRange)
include h

theorem Tally.InRange.evaluate : x.evaluate.InRange := by
  have moved : ∀ (d : Side) (v : Int) (o : Option Limit), (∀ l, o = some l → l.Sound x.kind) →
      ∀ l, (o.map fun l => (l.evaluate d v).1) = some l → l.Sound x.kind := by
    intro d v o ho l hl
    obtain ⟨l', rfl, rfl⟩ := Option.map_eq_some_iff.mp hl
    obtain ⟨level, hyst⟩ := ho l' rfl
    exact ⟨by simpa using level, by simpa using hyst⟩
  unfold Tally.evaluate
  split
  · exact h
  · exact ⟨h.value, h.count, h.rollover, h.rejected, h.dropped, fun hp => by simp [h.peak hp],
      moved .upper _ _ h.upper, moved .lower _ _ h.lower⟩

theorem Tally.InRange.setValue {v : Option Int} (hv : x.kind.allows v) :
    ({ x with value := v } : Tally).InRange := { h with value := hv }

theorem Tally.InRange.allows_valueAfterClose : x.kind.allows x.valueAfterClose := by
  unfold Tally.valueAfterClose
  split
  · rename_i hk
    exact ⟨fun _ => hk, nofun⟩
  · split
    · exact Kind.allows_zero
    · exact h.value

theorem Tally.InRange.startInterval (n : Interval) : (x.startInterval n).InRange :=
  Tally.InRange.evaluate { h with value := h.allows_valueAfterClose, count := by norm_num }

theorem Tally.InRange.setLimit {d : Side} {l : Option Limit} (hk : x.kind ≠ .peak)
    (hl : ∀ l', l = some l' → l'.Sound x.kind) : (x.setLimit d l).InRange := by
  cases d
  · exact { h with peak := fun hp => absurd hp hk, upper := hl }
  · exact { h with peak := fun hp => absurd hp hk, lower := hl }

theorem Tally.InRange.closingCell : x.closingCell.Sound :=
  ⟨fun v hv => Kind.holds_range (h.value.2 v hv), h.count⟩

/-- A SUM tally has a value, in its kind's range (R2). -/
theorem Tally.InRange.holds_value (hk : x.kind ≠ .peak) : x.kind.holds (x.value.getD 0) = true := by
  obtain ⟨absent, held⟩ := h.value
  cases hv : x.value with
  | none => exact absurd (absent hv) hk
  | some v => exact held v hv

theorem Tally.InRange.applySumU {n : Int} (hk : x.kind = .sumU) (hi : n < 2 ^ 47) :
    (x.applySumU (x.value.getD 0) n).1.InRange := by
  have old := h.holds_value (by simp [hk])
  rw [hk, Kind.holds_sumU] at old
  unfold Tally.applySumU maxUnsigned
  split
  · exact { h with rejected := saturate_lt h.rejected }
  · split
    · have wrapped := h.setValue (v := some (x.value.getD 0 + n - 2 ^ 64))
        (Kind.allows_some (by rw [hk, Kind.holds_sumU]; omega))
      exact { wrapped with rollover := saturate_lt h.rollover }
    · exact h.setValue (Kind.allows_some (by rw [hk, Kind.holds_sumU]; omega))

theorem Tally.InRange.applySumS {n : Int} (hk : x.kind = .sumS) :
    (x.applySumS (x.value.getD 0) n).1.InRange := by
  unfold Tally.applySumS maxSigned minSigned
  split
  · exact h.setValue (Kind.allows_some (by rw [hk, Kind.holds_sumS]; omega))
  · split
    · have clamped := h.setValue (v := some (if 2 ^ 63 - 1 < x.value.getD 0 + n then 2 ^ 63 - 1 else -2 ^ 63))
        (Kind.allows_some (by rw [hk, Kind.holds_sumS]; split <;> omega))
      exact { clamped with }
    · exact { h with }

theorem Tally.InRange.applyPeak {n : Int} (hk : x.kind = .peak) (lo : -2 ^ 47 < n) (hi : n < 2 ^ 47) :
    (x.applyPeak n).1.InRange := by
  unfold Tally.applyPeak
  split
  · exact h.setValue (Kind.allows_some (by rw [hk, Kind.holds_peak]; omega))
  · rename_i v hv
    have old := h.value.2 v hv
    rw [hk, Kind.holds_peak] at old
    exact h.setValue (Kind.allows_some (by rw [hk, Kind.holds_peak]; omega))

/-- A product of a staged contribution keeps the record in its ranges (R57 to R61). -/
theorem Tally.InRange.applyProduct {n : Int} (lo : -2 ^ 47 < n) (hi : n < 2 ^ 47) : (x.applyProduct n).1.InRange := by
  unfold Tally.applyProduct
  split
  case h_1 hk => exact h.applySumU hk hi
  case h_2 hk => exact h.applySumS hk
  case h_3 hk => exact h.applyPeak hk lo hi

theorem Tally.InRange.noteApplied (q : PortId) : (x.noteApplied q).InRange :=
  { h with count := saturate_lt (top := 2 ^ 32 - 1) h.count }

theorem Tally.InRange.clearFlags : x.clearFlags.InRange :=
  { h with rollover := Nat.zero_lt_succ _, rejected := Nat.zero_lt_succ _, dropped := Nat.zero_lt_succ _ }

end

/-- The product of a staged contribution is far inside every kind's range (R55). -/
theorem Staged.Sound.product {e : Staged} (h : e.Sound p) : -2 ^ 47 < e.product ∧ e.product < 2 ^ 47 := by
  obtain ⟨⟨hw, hw'⟩, hq, hq', -⟩ := h
  unfold Staged.product
  constructor <;> nlinarith

theorem Tally.takes.inRange {x y : Tally} {e : Staged} (h : x.takes e y) (hx : x.InRange) (he : e.Sound p) :
    y.InRange := by
  obtain ⟨lo, hi⟩ := he.product
  obtain ⟨-, rfl⟩ | ⟨-, rfl | rfl⟩ := h
  · exact { hx with dropped := saturate_lt hx.dropped }
  · exact (hx.applyProduct lo hi).noteApplied e.port
  · exact hx.applyProduct lo hi

theorem Tally.InRange.defineAs (p : PortId) (k : Kind) (g : GroupId) (pol : OverflowPolicy) (reset : Bool)
    (n : Interval) : (Tally.defineAs p k g pol reset n).InRange := by
  refine { Tally.InRange.cleared with value := ?_, peak := fun _ => ⟨rfl, rfl⟩, upper := nofun, lower := nofun }
  cases k
  · exact Kind.allows_zero
  · exact Kind.allows_zero
  · exact ⟨fun _ => rfl, nofun⟩

/-! ## Ranges of an event block -/

theorem mergesSound_saturate {n : Nat} (h : mergesSound n) : mergesSound (saturate 255 n) := by
  unfold mergesSound saturate at *
  split <;> omega

theorem EventBlock.FieldsSound.post {b : EventBlock} (h : b.FieldsSound) (k : EventKind) (v : Subject) (d : Detail) :
    (b.post k v d).FieldsSound := by
  obtain ⟨entries, marker⟩ := h
  unfold EventBlock.post
  split
  · refine ⟨fun e he => ?_, marker⟩
    rcases List.mem_append.mp he with hq | hs
    · obtain ⟨f, hf, rfl⟩ := List.mem_map.mp hq
      have sound := entries f (List.mem_append_left _ hf)
      split
      · exact mergesSound_saturate sound
      · exact sound
    · exact entries e (List.mem_append_right _ hs)
  · split
    · refine ⟨fun e he => ?_, marker⟩
      simp only [List.mem_append, List.mem_singleton] at he
      rcases he with (hq | rfl) | hs
      · exact entries e (List.mem_append_left _ hq)
      · exact ⟨le_rfl, by norm_num⟩
      · exact entries e (List.mem_append_right _ hs)
    · refine ⟨entries, fun n hn => ?_⟩
      cases hm : b.marker with
      | none => simp only [hm, noteLost, Option.some.injEq] at hn; subst hn; exact ⟨le_rfl, by norm_num⟩
      | some m =>
        simp only [hm, noteLost, Option.some.injEq] at hn
        subst hn
        exact mergesSound_saturate (marker m hm)

/-- The event TAKE_EVENT selects comes from the queue or the marker, and the rest stays (R143). -/
theorem EventBlock.pickClass_some {b b' : EventBlock} {c : EventClass} {e : Event}
    (h : b.pickClass c = some (e, b')) : b'.stack = b.stack ∧
      ((e ∈ b.queue ∧ b'.marker = b.marker ∧ ∀ f ∈ b'.queue, f ∈ b.queue) ∨
        ∃ n, b.marker = some n ∧ e = overflowEvent n ∧ b'.marker = none ∧ b'.queue = b.queue) := by
  unfold EventBlock.pickClass at h
  split at h
  · split at h
    · cases h
      exact ⟨rfl, .inr ⟨_, ‹_›, rfl, rfl, rfl⟩⟩
    · obtain ⟨f, hf, hfe⟩ := Option.map_eq_some_iff.mp h
      cases hfe
      exact ⟨rfl, .inl ⟨List.mem_of_find?_eq_some hf, rfl, fun f hf => List.mem_of_mem_eraseP hf⟩⟩
  · cases h

theorem EventBlock.pick_some {b : EventBlock} {r : Event × EventBlock} (h : b.pick = some r) :
    ∃ c, b.pickClass c = some r := by
  unfold EventBlock.pick at h
  rcases Option.or_eq_some_iff.mp h with h | ⟨-, h⟩
  · exact ⟨_, h⟩
  · rcases Option.or_eq_some_iff.mp h with h | ⟨-, h⟩ <;> exact ⟨_, h⟩

theorem EventBlock.FieldsSound.take {b b' : EventBlock} {e : Event} (h : b.FieldsSound)
    (ht : b.take = some (e, b')) : b'.FieldsSound := by
  obtain ⟨entries, marker⟩ := h
  obtain ⟨⟨f, b''⟩, hp, hr⟩ := Option.map_eq_some_iff.mp ht
  cases hr
  obtain ⟨c, hc⟩ := EventBlock.pick_some hp
  obtain ⟨stack, ⟨he, hm, hq⟩ | ⟨n, hn, rfl, hm, hq⟩⟩ := EventBlock.pickClass_some hc
  · refine ⟨fun f hf => ?_, by simpa [hm] using marker⟩
    simp only [List.mem_append, List.mem_cons, stack] at hf
    rcases hf with hf | rfl | hf
    · exact entries f (List.mem_append_left _ (hq f hf))
    · exact entries f (List.mem_append_left _ he)
    · exact entries f (List.mem_append_right _ hf)
  · refine ⟨fun f hf => ?_, by simp [hm]⟩
    simp only [List.mem_append, List.mem_cons, stack, hq] at hf
    rcases hf with hf | rfl | hf
    · exact entries f (List.mem_append_left _ hf)
    · exact marker n hn
    · exact entries f (List.mem_append_right _ hf)

theorem EventBlock.FieldsSound.ack {b b' : EventBlock} {e : Event} (h : b.FieldsSound)
    (ha : b.ack = some (e, b')) : b'.FieldsSound := by
  obtain ⟨entries, marker⟩ := h
  unfold EventBlock.ack at ha
  split at ha
  · cases ha
  · rename_i f rest hst
    cases ha
    refine ⟨fun f hf => entries f ?_, marker⟩
    rw [hst]
    simp only [List.mem_append, List.mem_cons] at hf ⊢
    tauto

/-! ## The whole part -/

/-- The ranges of all records, but for bind counts and staged counts. -/
structure State.InRange (s : State) : Prop where
  tally : ∀ u, (s.tally u).InRange
  port : ∀ p, (s.port p).FieldsSound p
  group : ∀ g, (s.group g).FieldsSound
  record : ∀ g, ∀ r ∈ s.ring g, r.FieldsSound

section
variable (hs : s.InRange)
include hs

theorem State.InRange.setTally {y : Tally} (hy : y.InRange) : (s.setTally u y).InRange :=
  { hs with
    tally := fun v => by
      rw [State.tally_setTally]
      split
      · exact hy
      · exact hs.tally v }

theorem State.InRange.setPort {y : Port} (hy : y.FieldsSound p) : (s.setPort p y).InRange :=
  { hs with
    port := fun q => by
      rw [State.port_setPort]
      split
      · subst q; exact hy
      · exact hs.port q }

theorem State.InRange.setGroup {y : Group} (hy : y.FieldsSound) : (s.setGroup g y).InRange :=
  { hs with
    group := fun k => by
      rw [State.group_setGroup]
      split
      · exact hy
      · exact hs.group k }

theorem State.InRange.setRing {l : List SnapRecord} (hl : ∀ r ∈ l, r.FieldsSound) : (s.setRing g l).InRange :=
  { hs with
    record := fun k => by
      rw [State.ring_setRing]
      split
      · exact hl
      · exact hs.record k }

theorem State.InRange.setEvents {b : EventBlock} (hb : b.FieldsSound) : (s.setEvents p b).InRange := by
  obtain ⟨view, room, fifo, -⟩ := hs.port p
  exact hs.setPort ⟨view, room, fifo, hb⟩

theorem State.InRange.setView {h : HandleId} {o : Option ViewEntry} (ho : ∀ e, o = some e → weightSound e.weight) :
    (s.setView p h o).InRange := by
  obtain ⟨view, room, fifo, events⟩ := hs.port p
  refine hs.setPort ⟨fun k e hk => ?_, room, fifo, events⟩
  simp only [Fin.getElem_fin, Vector.getElem_set] at hk
  split at hk
  · exact ho e hk
  · exact view k e hk

theorem State.InRange.setFifo {l : List Staged} (room : l.length ≤ Config.fifoPlaces) (sound : ∀ e ∈ l, e.Sound p) :
    (s.setPort p { s.port p with fifo := l }).InRange := by
  obtain ⟨view, -, -, events⟩ := hs.port p
  exact hs.setPort ⟨view, room, sound, events⟩

theorem State.InRange.post (k : EventKind) (v : Subject) (d : Detail) : (s.post p k v d).InRange := by
  unfold State.post
  split
  · exact hs
  · obtain ⟨-, -, -, events⟩ := hs.port p
    exact hs.setEvents (events.post k v d)

end

theorem SnapRecord.FieldsSound.writeCell {r : SnapRecord} (h : r.FieldsSound) {c : SnapCell} (hc : c.Sound)
    (u : TallyId) : (r.writeCell u c).FieldsSound := by
  unfold SnapRecord.writeCell
  split
  · refine ⟨h.1, fun d hd => ?_⟩
    rcases List.mem_or_eq_of_mem_set hd with hd | hd
    · exact h.2 d hd
    · cases hd; exact hc
  · exact h

theorem SnapRecord.FieldsSound.afterLeaving {r r' : SnapRecord} (h : r.FieldsSound) (hr : r.afterLeaving p = some r') :
    r'.FieldsSound := by
  unfold SnapRecord.afterLeaving at hr
  split at hr
  · dsimp only at hr
    split at hr
    · cases hr; exact h
    · split at hr <;> cases hr
      exact h
  · cases hr; exact h

theorem Group.FieldsSound.afterEdge {x : Group} (h : x.FieldsSound) : x.afterEdge.FieldsSound := by
  obtain ⟨period, countdown, zero, missed⟩ := h
  refine ⟨period, ?_, ?_, missed⟩ <;> simp only [Group.afterEdge] <;> split_ifs <;> omega

theorem Group.FieldsSound.meetEdge {x : Group} (h : x.FieldsSound) : x.meetEdge.FieldsSound := by
  unfold Group.meetEdge
  split
  · exact h
  · split
    · obtain ⟨period, countdown, zero, missed⟩ := h
      refine ⟨period, ?_, ?_, missed⟩ <;> dsimp only <;> omega
    · exact h

@[simp] theorem State.group_tickEdge (s : State) (g : GroupId) : s.tickEdge.group g = (s.group g).meetEdge :=
  tabulate_get _ g

/-- Every move keeps the ranges of all records. -/
theorem Move.keeps_inRange (h : Move a s t) (hs : s.InRange) : t.InRange := by
  cases h
  case queue | drawn | pointed | resetReleased => exact ⟨hs.tally, hs.port, hs.group, hs.record⟩
  case engine p y tables _ _ =>
    obtain ⟨view, fifo, events⟩ := tables
    have old := hs.port p
    refine hs.setPort ?_
    unfold Port.FieldsSound at old ⊢
    rwa [view, fifo, events]
  case sessionOpened p _ => exact hs.setPort (hs.port p)
  case viewsEnded p _ =>
    obtain ⟨-, room, fifo, events⟩ := hs.port p
    have tallies : (s.mapTallies fun t x => { x with bindCount := x.bindCount - s.entriesNaming p t }).InRange :=
      { hs with tally := fun u => by rw [State.tally_mapTallies]; exact { hs.tally u with } }
    exact tallies.setPort ⟨fun h e he => by simp at he, room, fifo, events⟩
  case eventsEnded p _ =>
    obtain ⟨view, room, fifo, -⟩ := hs.port p
    exact hs.setPort ⟨view, room, fifo, by simp [EventBlock.empty], nofun⟩
  case posted p k v d => exact hs.post k v d
  case masked p m _ => exact hs.setEvents (hs.port p).2.2.2
  case eventTaken p e b _ take =>
    obtain ⟨-, -, -, events⟩ := hs.port p
    exact hs.setEvents (events.take take)
  case eventAcked p e b _ ack =>
    obtain ⟨-, -, -, events⟩ := hs.port p
    exact hs.setEvents (events.ack ack)
  case bound p h u w _ _ _ weight =>
    have entered := hs.setView (p := p) (h := h) (o := some ⟨u, w⟩) fun e he => by cases he; exact weight
    exact entered.setTally { entered.tally u with }
  case unbound p h e _ =>
    have removed := hs.setView (p := p) (h := h) (o := none) fun _ h => nomatch h
    exact removed.setTally { removed.tally e.tally with }
  case staged p h e q entry room =>
    obtain ⟨view, -, fifo, -⟩ := hs.port p
    have joined := hs.setFifo (p := p) (l := (s.port p).fifo ++ [⟨e.tally, e.weight, q.toInt, p⟩])
      (by simpa [Nat.succ_le_iff] using room) fun x hx => by
        rcases List.mem_append.mp hx with hx | hx
        · exact fifo x hx
        · rw [List.mem_singleton] at hx
          subst hx
          exact ⟨view h e entry, q.le_toInt, q.toInt_lt, rfl⟩
    exact joined.setTally { joined.tally e.tally with }
  case unstaged p e rest head =>
    obtain ⟨-, room, fifo, -⟩ := hs.port p
    rw [head] at room fifo
    have left := hs.setFifo (p := p) (l := rest) (Nat.le_of_succ_le room) fun x hx => fifo x (List.mem_cons_of_mem _ hx)
    exact left.setTally { left.tally e.tally with }
  case defined => exact hs.setTally (.defineAs ..)
  case retired => exact (hs.setView (o := none) fun _ h => nomatch h).setTally .cleared
  case granted u _ _ | tallyClaimed u _ | tallyVacated u => exact hs.setTally { hs.tally u with }
  case stateSet e _ _ _ => exact hs.setTally { hs.tally e.tally with }
  case limitSet u d l kind sound => exact hs.setTally ((hs.tally u).setLimit kind sound)
  case copied u _ =>
    have cells := hs.setRing (g := (s.tally u).group)
      (l := (s.ring (s.tally u).group).map fun r => r.writeCell u (s.tally u).closingCell) fun r hr => by
        obtain ⟨r', hr', rfl⟩ := List.mem_map.mp hr
        exact (hs.record _ r' hr').writeCell (hs.tally u).closingCell u
    exact cells.setTally ((hs.tally u).startInterval _)
  case evaluated u => exact hs.setTally (hs.tally u).evaluate
  case valueStored u v allowed => exact hs.setTally ((hs.tally u).setValue allowed)
  case flagsCleared u => exact hs.setTally (hs.tally u).clearFlags
  case contributed q e y head takes =>
    obtain ⟨-, -, fifo, -⟩ := hs.port q
    exact hs.setTally (takes.inRange (hs.tally e.tally) (fifo e head))
  case groupClaimed g _ | groupVacated g | walked g _ => exact hs.setGroup (hs.group g)
  case groupSet g k pol period =>
    obtain ⟨-, -, -, missed⟩ := hs.group g
    exact hs.setGroup ⟨period, le_rfl, Iff.rfl, missed⟩
  case ticked =>
    refine { hs with group := fun g => ?_ }
    rw [State.group_tickEdge]
    exact (hs.group g).meetEdge
  case edgeHandled g _ => exact hs.setGroup (hs.group g).afterEdge
  case missCounted g =>
    obtain ⟨period, countdown, zero, missed⟩ := hs.group g
    exact hs.setGroup ⟨period, countdown, zero, saturate_lt missed⟩
  case closedUnobserved g _ =>
    refine State.InRange.setGroup (s := s.mapTallies _) { hs with tally := fun u => ?_ } (hs.group g)
    rw [State.tally_mapTallies]
    split
    · exact (hs.tally u).startInterval _
    · exact hs.tally u
  case closeStarted g c _ _ _ _ _ =>
    obtain ⟨period, countdown, zero, missed⟩ := hs.group g
    have entered := hs.setRing (g := g) (l := s.ring g ++ [s.newRecord g c (s.membersOf g) (s.readersOf (s.membersOf g))])
      fun r hr => by
        rcases List.mem_append.mp hr with hr | hr
        · exact hs.record g r hr
        · rw [List.mem_singleton] at hr
          subst hr
          exact ⟨missed, fun c hc => by simp [State.newRecord] at hc⟩
    have started := entered.setGroup (g := g) (y := { s.group g with
      missed := 0, interval := (s.group g).interval + 1, state := .closing, walk := 0 })
      ⟨period, countdown, zero, by norm_num⟩
    exact ⟨started.tally, started.port, started.group, started.record⟩
  case closeDiscarded g r _ _ _ =>
    have opened := hs.setGroup (g := g) (y := { s.group g with state := .opened, walk := 0 }) (hs.group g)
    have kept := opened.setRing (g := g) (l := (s.ring g).filter fun r => !(r.state == .filling))
      fun r hr => hs.record g r (List.mem_of_mem_filter hr)
    exact ⟨kept.tally, kept.port, kept.group, kept.record⟩
  case closeReady g r _ _ _ =>
    have opened := hs.setGroup (g := g) (y := { s.group g with state := .opened, walk := 0 }) (hs.group g)
    refine opened.setRing fun r hr => ?_
    obtain ⟨r', hr', rfl⟩ := List.mem_map.mp hr
    have old := hs.record g r' hr'
    split <;> exact old
  case oldestDropped g r rest ring _ =>
    have kept := hs.setRing (g := g) (l := rest) fun r hr => hs.record g r (by simp [ring, hr])
    exact ⟨kept.tally, kept.port, kept.group, kept.record⟩
  case readersLeft p g which =>
    refine { hs with record := fun k r hr => ?_ }
    rw [State.ring_leaveReaders] at hr
    split at hr
    · obtain ⟨r', hr', hf⟩ := List.mem_filterMap.mp hr
      split at hf
      · exact (hs.record k r' hr').afterLeaving hf
      · cases hf; exact hs.record k _ hr'
    · exact hs.record k r hr

/-! ## The bounds on the counts, and every step -/

theorem countP_le_one {α : Type} {f : α → Bool} {l : List α} (h : l.Pairwise fun x y => ¬(f x = true ∧ f y = true)) :
    l.countP f ≤ 1 := by
  induction l with
  | nil => simp
  | cons x l ih =>
    obtain ⟨first, rest⟩ := List.pairwise_cons.mp h
    rw [List.countP_cons]
    split
    · rename_i hx
      have none_more : l.countP f = 0 := List.countP_eq_zero.mpr fun y hy hf => first y hy ⟨hx, hf⟩
      omega
    · exact ih rest

/-- A port names a tally by at most one handle (R27). -/
theorem State.CountsAgree.entriesNaming_le (hs : s.CountsAgree) (p : PortId) (u : TallyId) :
    s.entriesNaming p u ≤ 1 := by
  refine countP_le_one (List.pairwise_iff_getElem.mpr fun i j hi hj hij both => ?_)
  have named : ∀ (i : Nat) (hi : i < 64), entryNames u (s.viewEntry p ⟨i, hi⟩) = true →
      ∃ e, s.viewEntry p ⟨i, hi⟩ = some e ∧ e.tally = u := by
    intro i hi h
    cases he : s.viewEntry p ⟨i, hi⟩ with
    | none => simp [he] at h
    | some e => exact ⟨e, rfl, by simpa [he] using h⟩
  have hi : i < 64 := by simpa using hi
  have hj : j < 64 := by simpa using hj
  obtain ⟨e, he, hu⟩ := named i hi (by simpa [State.viewEntry] using both.1)
  obtain ⟨e', he', hu'⟩ := named j hj (by simpa [State.viewEntry] using both.2)
  have same := hs.2 p _ _ e e' he he' (hu.trans hu'.symm)
  rw [Fin.mk.injEq] at same
  omega

/-- Four ports bind a tally at most four times (R11, R27). -/
theorem State.CountsAgree.bindCount_le (hs : s.CountsAgree) (u : TallyId) : (s.tally u).bindCount ≤ 4 := by
  have once := fun p => hs.entriesNaming_le p u
  have sum : s.bindings u ≤ 4 := by
    have := List.sum_le_card_nsmul ((List.finRange 4).map fun p => s.entriesNaming p u) 1 (by simpa using once)
    simpa [State.bindings] using this
  rw [(hs.1 u).1]
  exact sum

/-- Four FIFOs of eight places name a tally at most 32 times (R11, R47). -/
theorem State.CountsAgree.stagedCount_le (hs : s.CountsAgree) (room : ∀ p, (s.port p).fifo.length ≤ Config.fifoPlaces)
    (u : TallyId) : (s.tally u).stagedCount ≤ 32 := by
  have each : ∀ p, (s.port p).fifo.countP (fun e => e.tally == u) ≤ 8 := fun p => List.countP_le_length.trans (room p)
  have sum := List.sum_le_card_nsmul ((List.finRange 4).map fun p => (s.port p).fifo.countP fun e => e.tally == u) 8
    (by simpa using each)
  rw [(hs.1 u).2.1]
  simpa [State.stagings] using sum

theorem State.FieldsSound.inRange (h : s.FieldsSound) : s.InRange := by
  obtain ⟨tallies, ports, groups⟩ := h
  exact ⟨fun u => ((s.tally u).fieldsSound_iff.mp (tallies u)).1, ports, fun g => (groups g).1, fun g => (groups g).2⟩

theorem State.InRange.fieldsSound (h : s.InRange) (hc : s.CountsAgree) : s.FieldsSound := by
  refine ⟨fun u => ?_, h.port, fun g => ⟨h.group g, h.record g⟩⟩
  have room : ∀ p, (s.port p).fifo.length ≤ Config.fifoPlaces := fun p => (h.port p).2.1
  exact (s.tally u).fieldsSound_iff.mpr ⟨h.tally u, hc.bindCount_le u, hc.stagedCount_le room u⟩

/-- Cleared tallies, empty tables, groups as after RESET# and empty rings are in range. -/
theorem State.InRange.of_cleared (ht : ∀ u, s.tally u = Tally.cleared)
    (hv : ∀ p, (s.port p).view = Vector.replicate 64 none) (hf : ∀ p, (s.port p).fifo = [])
    (he : ∀ p, (s.port p).events = EventBlock.empty) (hg : ∀ g, s.group g = Group.atReset)
    (hr : ∀ g, s.ring g = []) : s.InRange := by
  refine ⟨fun u => ?_, fun p => ?_, fun g => ?_, fun g r h => ?_⟩
  · rw [ht]; exact .cleared
  · simp [Port.FieldsSound, hv, hf, he, EventBlock.FieldsSound, EventBlock.empty]
  · rw [hg]; simp [Group.FieldsSound, Group.atReset]
  · simp [hr] at h

theorem State.InRange.assertReset (s : State) : s.assertReset.InRange :=
  .of_cleared (by simp) (by simp [Port.deviceReset, Port.atReset]) (by simp [Port.deviceReset, Port.atReset])
    (by simp [Port.deviceReset, Port.atReset]) (by simp) (by simp)

/-- Settles O59: each move keeps the ranges of all records, and the counts that agree (O54) bound the rest. -/
theorem everyStepKeepsFieldsSound : Obligations.EveryStepKeepsFieldsSound := by
  intro s t hc hs h
  have counts : t.CountsAgree := everyStepKeepsCountsAgree s t hc h
  have ranges : t.InRange := step_keeps (fun _ _ _ m => m.keeps_inRange) (fun s _ => .assertReset s) hs.inRange h
  exact ranges.fieldsSound counts

end Sys2Proof.Machine

/-! O3: the make of a defined tally stands, and its rights change by its administrator's transactions alone. All moves
but those of DEFINE, RETIRE and GRANT leave make and rights of every tally; those three requests are read off. -/

namespace Sys2Proof.Machine

variable {a : Option Req} {s t : State} {p : PortId} {u : TallyId}

/-- Kind, group, overflow policy, reset-on-close and rights are left as they were. -/
structure Tally.sameMake (x y : Tally) : Prop where
  kind : y.kind = x.kind
  group : y.group = x.group
  policy : y.policy = x.policy
  resetOnClose : y.resetOnClose = x.resetOnClose
  rights : y.rights = x.rights

theorem Tally.sameMake.refl (x : Tally) : x.sameMake x := ⟨rfl, rfl, rfl, rfl, rfl⟩

theorem Tally.sameMake.trans {x y z : Tally} (h : x.sameMake y) (h' : y.sameMake z) : x.sameMake z :=
  ⟨h'.kind.trans h.kind, h'.group.trans h.group, h'.policy.trans h.policy, h'.resetOnClose.trans h.resetOnClose,
    h'.rights.trans h.rights⟩

theorem Tally.applyProduct_sameMake (x : Tally) (n : Int) : x.sameMake (x.applyProduct n).1 := by
  unfold Tally.applyProduct
  split
  · unfold Tally.applySumU; split
    · exact ⟨rfl, rfl, rfl, rfl, rfl⟩
    · split <;> exact ⟨rfl, rfl, rfl, rfl, rfl⟩
  · unfold Tally.applySumS; split
    · exact ⟨rfl, rfl, rfl, rfl, rfl⟩
    · split <;> exact ⟨rfl, rfl, rfl, rfl, rfl⟩
  · unfold Tally.applyPeak; split <;> exact ⟨rfl, rfl, rfl, rfl, rfl⟩

theorem Tally.takes.sameMake {x y : Tally} {e : Staged} (h : x.takes e y) : x.sameMake y := by
  obtain ⟨-, rfl⟩ | ⟨-, rfl | rfl⟩ := h
  · exact ⟨rfl, rfl, rfl, rfl, rfl⟩
  · exact (x.applyProduct_sameMake e.product).trans ⟨rfl, rfl, rfl, rfl, rfl⟩
  · exact x.applyProduct_sameMake e.product

theorem State.sameMake_setTally {v : TallyId} {y : Tally} (u : TallyId) (h : (s.tally v).sameMake y) :
    (s.tally u).sameMake ((s.setTally v y).tally u) := by
  rw [State.tally_setTally]
  split
  · subst u; exact h
  · exact .refl _

/-- Moves of other requests than DEFINE, RETIRE and GRANT leave make and rights of every tally (R4, R9). -/
theorem Move.sameMake (h : Move a s t) (hd : a ≠ some .define) (hr : a ≠ some .retire) (hg : a ≠ some .grant)
    (u : TallyId) : (s.tally u).sameMake (t.tally u) := by
  cases h
  case defined request _ _ _ _ _ _ _ => exact absurd request hd
  case retired request _ _ _ _ _ _ _ => exact absurd request hr
  case granted request _ _ _ => exact absurd request hg
  case viewsEnded p _ => rw [State.tally_endViews]; exact ⟨rfl, rfl, rfl, rfl, rfl⟩
  case posted => rw [State.tally_post]; exact .refl _
  case evaluated => exact State.sameMake_setTally u ⟨by simp, by simp, by simp, by simp, by simp⟩
  case limitSet d _ _ _ => refine State.sameMake_setTally u ?_; cases d <;> exact ⟨rfl, rfl, rfl, rfl, rfl⟩
  case contributed takes => exact State.sameMake_setTally u takes.sameMake
  case tallyClaimed | tallyVacated | stateSet | valueStored | flagsCleared | bound | unbound | staged | unstaged =>
    refine State.sameMake_setTally u ?_; exact ⟨rfl, rfl, rfl, rfl, rfl⟩
  case copied v _ =>
    rw [State.tally_copyStep]
    split
    · subst u; exact ⟨by simp, by simp, by simp, by simp, by simp⟩
    · exact .refl _
  case closedUnobserved g _ =>
    rw [State.tally_unobservedClose]
    split
    · exact ⟨by simp, by simp, by simp, by simp, by simp⟩
    · exact .refl _
  all_goals exact .refl _

theorem Moves.sameMake (h : Moves a s t) (hd : a ≠ some .define) (hr : a ≠ some .retire) (hg : a ≠ some .grant)
    (u : TallyId) : (s.tally u).sameMake (t.tally u) :=
  h.keeps (I := fun t => (s.tally u).sameMake (t.tally u)) (fun _ _ m hs => hs.trans (m.sameMake hd hr hg u)) (.refl _)

/-! ## The three requests that write make or rights -/

theorem actDefine_state (tag : Byte) (pl : List Byte) : (actDefine s p tag pl).1 = s ∨
    ∃ u y, (s.tally u).state = .free ∧ (actDefine s p tag pl).1 = s.setTally u y := by
  unfold actDefine
  split
  · split
    · exact .inl rfl
    · rename_i u hu
      exact .inr ⟨u, _, by simpa using List.find?_some hu, rfl⟩
  · exact .inl rfl

theorem actRetire_state (tag : Byte) (pl : List Byte) : (actRetire s p tag pl).1 = s ∨
    ∃ h e, (actRetire s p tag pl).1 = (s.setView p h none).setTally e Tally.cleared := by
  unfold actRetire State.onHandle State.asTallyAdmin
  split
  · exact .inl rfl
  · split
    · exact .inl rfl
    · dsimp only
      split
      · split
        · exact .inl rfl
        · split
          · exact .inl rfl
          · exact .inr ⟨_, _, rfl⟩
      · exact .inl rfl

theorem actGrant_state (tag : Byte) (pl : List Byte) : (actGrant s p tag pl).1 = s ∨
    ∃ u rights, (s.tally u).admin = some p ∧
      (actGrant s p tag pl).1 = s.setTally u { s.tally u with rights := rights } := by
  unfold actGrant State.onHandle State.asTallyAdmin
  split
  · split
    · exact .inl rfl
    · split
      · exact .inl rfl
      · dsimp only
        split
        · exact .inr ⟨_, _, ‹_›, rfl⟩
        · exact .inl rfl
  · exact .inl rfl

/-! ## Every command -/

/-- The make stands, and the rights change only by a transaction on the administrator's port `o`. -/
def Tally.keepsMake (x y : Tally) (o : Option PortId) : Prop :=
  y.kind = x.kind ∧ y.group = x.group ∧ y.policy = x.policy ∧ y.resetOnClose = x.resetOnClose ∧
    (y.rights ≠ x.rights → ∃ p, x.admin = some p ∧ o = some p)

theorem Tally.sameMake.keeps {x y : Tally} (h : x.sameMake y) (o : Option PortId) : x.keepsMake y o :=
  ⟨h.kind, h.group, h.policy, h.resetOnClose, fun changed => absurd h.rights changed⟩

/-- But for HELLO and POST a request has one action. -/
theorem servesAs.eq_actOf {r : Req} {act : State → PortId → Byte → List Byte → Reply} (h : servesAs r act)
    (hh : r ≠ .hello) (hp : r ≠ .post) : act = actOf r := by
  obtain h | ⟨h, -⟩ | ⟨h, -⟩ := h
  · exact h
  · exact absurd h hh
  · exact absurd h hp

/-- A tally defined before and after a block's action keeps its make (R4, R9, R10, R19). -/
theorem servesAs.keepsMake {r : Req} {act : State → PortId → Byte → List Byte → Reply} (h : servesAs r act)
    (online : (s.port p).session = .online ∨ r = .hello) (tag : Byte) (pl : List Byte)
    (before : (s.tally u).state ≠ .free) (after : ((act s p tag pl).1.tally u).state ≠ .free) :
    (s.tally u).keepsMake ((act s p tag pl).1.tally u) (some p) := by
  have unchanged : (s.tally u).keepsMake (s.tally u) (some p) := (Tally.sameMake.refl _).keeps _
  by_cases writes : r = .define ∨ r = .retire ∨ r = .grant
  · have acts : act = actOf r := h.eq_actOf (by rintro rfl; simp at writes) (by rintro rfl; simp at writes)
    subst acts
    obtain rfl | rfl | rfl := writes
    · obtain same | ⟨v, y, free, same⟩ := actDefine_state (s := s) (p := p) tag pl
      · simpa only [actOf, same] using unchanged
      · have other : u ≠ v := fun e => before (e ▸ free)
        simpa only [actOf, same, State.tally_setTally_ne _ _ _ _ other] using unchanged
    · obtain same | ⟨k, v, same⟩ := actRetire_state (s := s) (p := p) tag pl
      · simpa only [actOf, same] using unchanged
      · have other : u ≠ v := by
          rintro rfl
          simp [actOf, same, Tally.cleared] at after
        simpa only [actOf, same, State.tally_setTally_ne _ _ _ _ other, State.tally_setView] using unchanged
    · obtain same | ⟨v, rights, admin, same⟩ := actGrant_state (s := s) (p := p) tag pl
      · simpa only [actOf, same] using unchanged
      · by_cases e : u = v
        · subst e
          simp only [actOf, same, State.tally_setTally_self]
          exact ⟨rfl, rfl, rfl, rfl, fun _ => ⟨p, admin, rfl⟩⟩
        · simpa only [actOf, same, State.tally_setTally_ne _ _ _ _ e] using unchanged
  · simp only [not_or] at writes
    obtain ⟨hd, hr, hg⟩ := writes
    exact ((h.moves online tag pl).sameMake (by simpa using hd) (by simpa using hr) (by simpa using hg) u).keeps _

theorem Transacted.keepsMake (h : Transacted s p t) (before : (s.tally u).state ≠ .free)
    (after : (t.tally u).state ≠ .free) : (s.tally u).keepsMake (t.tally u) (some p) := by
  cases h with
  | unheard => exact (Tally.sameMake.refl _).keeps _
  | moved y _ => exact (Tally.sameMake.refl _).keeps _
  | taken y tag t _ examined =>
    cases examined with
    | refused st => exact (Tally.sameMake.refl _).keeps _
    | answered r pl act t b online _ serves acts =>
      have kept := serves.keepsMake (u := u) online tag pl before
      rw [acts] at kept
      exact kept after
    | waits r pl act t online _ serves acts =>
      have kept := serves.keepsMake (u := u) online tag pl before
      rw [acts] at kept
      exact kept after

/-- Settles O3: a transaction keeps the make and leaves the rights to the administrator's port, RESET# asserted frees
every tally, and all other commands are moves that write neither make nor rights. -/
theorem definedTalliesKeepTheirMake : Obligations.DefinedTalliesKeepTheirMake := by
  intro s t c u h before after
  show (s.tally u).keepsMake (t.tally u) (transactionPort c)
  cases hp : transactionPort c with
  | some p =>
    obtain ⟨t', he, ht⟩ := exec_transacted c s hp
    cases h.symm.trans he
    exact ht.keepsMake before after
  | none =>
    by_cases hc : c = .resetAssert
    · subst hc
      cases h
      exact absurd (by simp [Tally.cleared]) after
    · obtain ⟨t', he, moved⟩ := exec_moves_internal s c hp hc
      cases h.symm.trans he
      exact (moved.sameMake nofun nofun nofun u).keeps _

end Sys2Proof.Machine

/-! O12, O21 to O24: the requests of tally administration. A served request is its block's action on the state with
the frame taken, and its answer. -/

namespace Sys2Proof.Machine

variable {s : State} {p : PortId} {tag : Byte} {r : Req} {pl : List Byte} {h : HandleId} {e : ViewEntry}

/-! ## Served requests -/

theorem exec_requestCommand (r : Req) (p : PortId) (tag : Byte) (pl : List Byte) (s : State) :
    exec (requestCommand r p tag pl) s = .next (s.request p tag r pl (actOf r)) := by
  cases r <;> rfl

/-- Every payload a request accepts fits into a frame (R154, R169). -/
theorem accepts_length (h : accepts r pl = true) : pl.length ≤ 120 := by
  cases r
  case post =>
    simp only [accepts, payloadLength, postLengthOk, Bool.and_eq_true, decide_eq_true_eq, beq_iff_eq] at h
    omega
  all_goals
    simp only [accepts, payloadLength, beq_iff_eq] at h
    omega

/-- A served request that its block answers at once. -/
theorem exec_answers {t : State} {a : Answer} (hs : s.serves p) (ha : accepts r pl = true)
    (acts : actOf r (s.taken p tag (frameBits pl)) p tag pl = (t, some a)) :
    exec (requestCommand r p tag pl) s = .next (t.respond p tag a) := by
  rw [exec_requestCommand, s.request_served p tag r pl _ hs (accepts_length ha) ha, acts]

/-- A served request that its block refuses, or answers without a move. -/
theorem exec_denies {st : Status} {payload : List Byte} (hs : s.serves p) (ha : accepts r pl = true)
    (acts : actOf r (s.taken p tag (frameBits pl)) p tag pl = (s.taken p tag (frameBits pl), some ⟨st, payload⟩)) :
    ∃ t, exec (requestCommand r p tag pl) s = .next t ∧ s.onlyAnswered t p tag st payload :=
  ⟨_, exec_answers hs ha acts, s.onlyAnswered_taken p tag _ ⟨st, payload⟩⟩

theorem State.onHandle_unbound {act : HandleId → ViewEntry → Reply} (entry : s.viewEntry p h = none) :
    s.onHandle p (some h) act = s.deny .noHandle := by simp [State.onHandle, entry]

theorem State.onHandle_bound {act : HandleId → ViewEntry → Reply} (entry : s.viewEntry p h = some e) :
    s.onHandle p (some h) act = act h e := by simp [State.onHandle, entry]

theorem State.asTallyAdmin_admin {u : TallyId} {x : Reply} (admin : (s.tally u).admin = some p) :
    s.asTallyAdmin p u x = x := if_pos admin

@[simp] theorem byteAt_zero (b : Byte) (l : List Byte) : byteAt (b :: l) 0 = b := rfl

/-! ## Fields in range -/

theorem readSide_of_lt {b : Byte} (h : b.toNat < 2) : ∃ d, readSide b = some d := by
  obtain h | h : b.toNat = 0 ∨ b.toNat = 1 := by omega
  all_goals simp [readSide, h]

theorem readLimitOp_of_lt {b : Byte} (h : b.toNat < 3) : ∃ o, readLimitOp b = some o := by
  obtain h | h | h : b.toNat = 0 ∨ b.toNat = 1 ∨ b.toNat = 2 := by omega
  all_goals simp [readLimitOp, h]

theorem readSigned_of_lt {b : Byte} (h : b.toNat < 2) (m : Nat) : ∃ v, readSigned b m = some v := by
  obtain h | h : b.toNat = 0 ∨ b.toNat = 1 := by omega
  all_goals simp [readSigned, h]

theorem readPort_of_lt {b : Byte} (h : b.toNat < 4) : ∃ q, readPort b = some q := ⟨_, dif_pos h⟩

theorem readRights_of_lt {b : Byte} (h : b.toNat < 16) : ∃ x, readRights b = some x := ⟨_, if_pos h⟩

/-! ## Standing -/

/-- A handle-addressed request with its fields in range goes by its handle first, and then refuses a caller without
the standing it needs (R32, R33). -/
theorem actOf_onHandle (s : State) (p : PortId) (tag : Byte) {pl : List Byte} (hn : namesAHandle r = true)
    (hf : fieldsInRange r pl) : ∃ act, actOf r s p tag pl = s.onHandle p (readHandle (byteAt pl 0)) act ∧
      ∀ h e st, s.standing p e.tally r = some st → act h e = s.deny st := by
  have admin : ∀ (e : ViewEntry) (st : Status) (x : Reply),
      (if (s.tally e.tally).admin = some p then none else some Status.notAdmin) = some st →
      s.asTallyAdmin p e.tally x = s.deny st := by
    intro e st x hs
    split at hs <;> cases hs
    exact if_neg ‹_›
  have right : ∀ (b : Bool) (st : Status) (x : Reply),
      (if b then none else some Status.noRight) = some st → (if b then x else s.deny .noRight) = s.deny st := by
    intro b st x hs
    cases b <;> cases hs
    rfl
  cases r
  case retire | freeze | resume => exact ⟨_, rfl, fun _ e st => admin e st _⟩
  case claimTally =>
    refine ⟨_, rfl, fun _ e st (hs : (if (s.tally e.tally).admin = none then _ else _) = _) => ?_⟩
    split at hs <;> cases hs
    exact if_pos (Option.isSome_iff_ne_none.mpr ‹_›)
  case unbind => exact ⟨_, rfl, fun _ _ _ hs => nomatch hs⟩
  case read | take | clearFlags => exact ⟨_, rfl, fun _ e st => right _ st _⟩
  case grant =>
    obtain ⟨-, h1, h2⟩ := hf
    obtain ⟨q, hq⟩ := readPort_of_lt h1
    obtain ⟨x, hx⟩ := readRights_of_lt h2
    simp only [actOf, actGrant, hq, hx]
    exact ⟨_, rfl, fun _ e st => admin e st _⟩
  case setLimit =>
    obtain ⟨-, h1, h2, h3⟩ := hf
    obtain ⟨d, hd⟩ := readSide_of_lt h1
    obtain ⟨o, ho⟩ := readLimitOp_of_lt h2
    obtain ⟨v, hv⟩ := readSigned_of_lt h3 (fieldAt pl 4 8)
    simp only [actOf, actSetLimit, hd, ho, hv]
    exact ⟨_, rfl, fun _ e st => admin e st _⟩
  case exchange =>
    obtain ⟨-, h1, h10⟩ := hf
    obtain ⟨v, hv⟩ := readSigned_of_lt h1 (fieldAt pl 2 8)
    obtain ⟨w, hw⟩ := readSigned_of_lt h10 (fieldAt pl 11 8)
    simp only [actOf, actExchange, hv, hw, State.direct]
    exact ⟨_, rfl, fun _ e st => right _ st _⟩
  all_goals cases hn

/-- Settles O12: the handle and the standing are checked on the state with the frame taken, which holds the same views,
rights and roles. -/
theorem handleRequestsCheckTheirStanding : Obligations.HandleRequestsCheckTheirStanding := by
  intro s p r tag h rest hs hn ha hf
  obtain ⟨act, acts, standing⟩ := actOf_onHandle (s.taken p tag (frameBits (handleByte h :: rest))) p tag hn hf
  rw [byteAt_zero, readHandle_handleByte] at acts
  refine ⟨fun entry => exec_denies hs ha ?_, fun e st entry hst => exec_denies hs ha ?_⟩
  · rw [acts, State.onHandle_unbound (by simpa using entry)]
    rfl
  · have same : (s.taken p tag (frameBits (handleByte h :: rest))).standing p e.tally r = s.standing p e.tally r := by
      cases r <;> rfl
    rw [acts, State.onHandle_bound (by simpa using entry), standing h e st (same.trans hst)]
    rfl

/-! ## Answers that come with a new tally record -/

/-- An answer on the state with the frame taken and one tally written. -/
theorem State.onlyTally_taken (s : State) (p : PortId) (tag : Byte) (n : Nat) (u : TallyId) (y : Tally) (a : Answer) :
    s.answeredTo (((s.taken p tag n).setTally u y).respond p tag a) p tag a.status a.payload ∧
      (((s.taken p tag n).setTally u y).respond p tag a).tally u = y ∧
      s.onlyTally (((s.taken p tag n).setTally u y).respond p tag a) p u := by
  refine ⟨⟨by simp, by simp⟩, by simp, ?_, fun q hq => by simp [hq], fun v hv => by simp [hv], fun _ => rfl,
    ⟨fun _ => rfl, rfl⟩, rfl, rfl, rfl⟩
  simp [Port.sameButAnswer, Port.sameEngine, Port.sameTables]

/-! ## DEFINE -/

theorem State.lowestFree_eq_none (hu : ∀ u, (s.tally u).state ≠ .free) : s.lowestFree = none := by
  simpa [State.lowestFree] using hu

theorem State.lowestFree_eq_some {u : TallyId} (free : (s.tally u).state = .free)
    (lower : ∀ v, v < u → (s.tally v).state ≠ .free) : s.lowestFree = some u := by
  rw [State.lowestFree, List.find?_eq_some_iff_getElem]
  refine ⟨by simp [free], u.val, by simp, by simp, fun j hj => ?_⟩
  have below : (⟨j, hj.trans u.isLt⟩ : TallyId) < u := hj
  simpa using lower _ below

/-- DEFINE with every field in range and no FREE tally (R16). -/
theorem actDefine_none (none_free : s.lowestFree = none) (p : PortId) (tag : Byte) (k : Kind) (g : GroupId)
    (pol : OverflowPolicy) (reset : Bool) :
    actDefine s p tag [k.code, groupByte g, pol.code, boolByte reset] = s.deny .noSpace := by
  simp [actDefine, byteAt, none_free]

/-- DEFINE with every field in range and a FREE tally (R16). -/
theorem actDefine_some {u : TallyId} (lowest : s.lowestFree = some u) (p : PortId) (tag : Byte) (k : Kind)
    (g : GroupId) (pol : OverflowPolicy) (reset : Bool) :
    actDefine s p tag [k.code, groupByte g, pol.code, boolByte reset] =
      (s.setTally u (Tally.defineAs p k g pol reset (s.group g).interval)).reply .ok
        (tallyByte u :: intervalBytes (s.group g).interval) := by
  simp [actDefine, byteAt, lowest]

/-- Settles O21: the lowest FREE tally is found where the statement puts it, and its record is DEFINE's own. -/
theorem defineTakesTheLowestFreeTally : Obligations.DefineTakesTheLowestFreeTally := by
  intro s p tag k g pol reset hs
  refine ⟨fun defined => ?_, fun u free lower => ?_⟩
  · exact exec_denies (r := .define) hs rfl
      (actDefine_none (s := s.taken p tag _) (State.lowestFree_eq_none defined) p tag k g pol reset)
  · have acts := fun n => actDefine_some (s := s.taken p tag n) (State.lowestFree_eq_some free lower) p tag k g pol reset
    obtain ⟨answered, made, rest⟩ := s.onlyTally_taken p tag _ u _ _
    refine ⟨_, exec_answers (r := .define) hs rfl (acts _), answered, ?_, rest⟩
    rw [made]
    cases k <;> rfl

/-! ## The requests of a tally's administrator -/

/-- RETIRE by the administrator (R17). -/
theorem actRetire_eq (entry : s.viewEntry p h = some e) (admin : (s.tally e.tally).admin = some p) (tag : Byte) :
    actRetire s p tag [handleByte h] =
      if (s.group (s.tally e.tally).group).state = .closing then s.deny .busy
      else if 1 < (s.tally e.tally).bindCount ∨ 0 < (s.tally e.tally).stagedCount then s.deny .inUse
      else ((s.setView p h none).setTally e.tally Tally.cleared).reply .ok [tallyByte e.tally] := by
  rw [actRetire, byteAt_zero, readHandle_handleByte, State.onHandle_bound entry, State.asTallyAdmin_admin admin]

/-- GRANT by the administrator (R19). -/
theorem actGrant_eq (entry : s.viewEntry p h = some e) (admin : (s.tally e.tally).admin = some p) (tag : Byte)
    (q : PortId) (x : Rights) : actGrant s p tag [handleByte h, byteOf q.val, x.code] =
      (s.setTally e.tally { s.tally e.tally with rights := (s.tally e.tally).rights.set q x }).reply .ok
        [(s.rightsOf q e.tally).code, x.code] := by
  simp only [actGrant, byteAt, List.getD_cons_zero, List.getD_cons_succ, readPort_byteOf, readRights_code,
    readHandle_handleByte]
  rw [State.onHandle_bound entry, State.asTallyAdmin_admin admin]
  rfl

/-- CLAIM_TALLY of a vacant role (R22). -/
theorem actClaimTally_eq (entry : s.viewEntry p h = some e) (vacant : (s.tally e.tally).admin = none) (tag : Byte) :
    actClaimTally s p tag [handleByte h] =
      (s.setTally e.tally { s.tally e.tally with admin := some p }).reply .ok [tallyByte e.tally] := by
  rw [actClaimTally, byteAt_zero, readHandle_handleByte, State.onHandle_bound entry]
  exact if_neg (by simp [vacant])

/-- FREEZE and RESUME by the administrator (R20, R21). -/
theorem actFreeze_eq (entry : s.viewEntry p h = some e) (admin : (s.tally e.tally).admin = some p) (tag : Byte) :
    actFreeze s p tag [handleByte h] = (s.setTallyState e.tally .frozen).reply .ok [2] := by
  rw [actFreeze, byteAt_zero, readHandle_handleByte, State.onHandle_bound entry, State.asTallyAdmin_admin admin]
  rfl

theorem actResume_eq (entry : s.viewEntry p h = some e) (admin : (s.tally e.tally).admin = some p) (tag : Byte) :
    actResume s p tag [handleByte h] = (s.setTallyState e.tally .live).reply .ok [1] := by
  rw [actResume, byteAt_zero, readHandle_handleByte, State.onHandle_bound entry, State.asTallyAdmin_admin admin]
  rfl

theorem State.setTallyState_of_not_owed {u : TallyId} {st : TallyState} (hu : s.owed u = false) :
    s.setTallyState u st = s.setTally u { s.tally u with state := st } := by
  simp [State.setTallyState, hu]

/-- The entry and the role still stand when the frame has been taken. -/
theorem State.viewEntry_taken_of (entry : s.viewEntry p h = some e) (n : Nat) :
    (s.taken p tag n).viewEntry p h = some e := by simpa using entry

@[simp] theorem State.viewEntry_setTally (s : State) (u : TallyId) (y : Tally) (q : PortId) (k : HandleId) :
    (s.setTally u y).viewEntry q k = s.viewEntry q k := rfl

/-- Settles O22: the three outcomes are the branches of RETIRE, read on the state with the frame taken. -/
theorem retireFreesTheTally : Obligations.RetireFreesTheTally := by
  intro s p tag h e hs entry admin
  dsimp only
  have acts := actRetire_eq (s := s.taken p tag (frameBits [handleByte h])) (s.viewEntry_taken_of entry _) admin tag
  rw [State.group_taken, State.tally_taken] at acts
  refine ⟨fun closing => ?_, fun isOpen held => ?_, fun isOpen unbound unstaged => ?_⟩
  · rw [if_pos closing] at acts
    exact exec_denies (r := .retire) hs rfl acts
  · rw [if_neg (by simp [isOpen]), if_pos held] at acts
    exact exec_denies (r := .retire) hs rfl acts
  · rw [if_neg (by simp [isOpen]), if_neg (by omega)] at acts
    refine ⟨_, exec_answers (r := .retire) hs rfl acts, ⟨?_, ?_⟩, by simp, ?_, fun k hk => ?_, ?_, ?_, ?_,
      fun q hq => ?_, fun v hv => by simp [hv], fun _ => rfl, ⟨fun _ => rfl, rfl⟩, rfl, rfl, rfl⟩
    · simp [State.setView, State.port_respond_self]; rfl
    · simp [State.setView]
    · simp [State.viewEntry_setView]
    · simp [State.viewEntry_setView, hk]
    · simp [State.setView, Port.sameEngine]
    · simp [State.setView]
    · simp [State.setView]
    · simp [State.setView, hq]

/-- Settles O23: each request writes one tally record, with no touch before it. -/
theorem grantAndClaimTally : Obligations.GrantAndClaimTally := by
  intro s p tag h e hs entry x
  refine ⟨fun q r admin => ?_, fun vacant => ?_⟩
  · exact ⟨_, exec_answers (r := .grant) hs rfl (actGrant_eq (s.viewEntry_taken_of entry _) admin tag q r),
      s.onlyTally_taken p tag _ e.tally _ _⟩
  · exact ⟨_, exec_answers (r := .claimTally) hs rfl (actClaimTally_eq (s.viewEntry_taken_of entry _) vacant tag),
      s.onlyTally_taken p tag _ e.tally _ _⟩

/-- Settles O24: on a tally that is not owed the touch changes nothing, so the state alone is written. -/
theorem freezeAndResumeSetTheState : Obligations.FreezeAndResumeSetTheState := by
  intro s p tag h e hs entry admin current
  have current' : ∀ n, (s.taken p tag n).owed e.tally = false := fun n => by simpa using current
  have freezes := fun n => actFreeze_eq (s := s.taken p tag n) (s.viewEntry_taken_of entry n) admin tag
  have resumes := fun n => actResume_eq (s := s.taken p tag n) (s.viewEntry_taken_of entry n) admin tag
  simp only [State.setTallyState_of_not_owed (current' _)] at freezes resumes
  exact ⟨⟨_, exec_answers (r := .freeze) hs rfl (freezes _), s.onlyTally_taken p tag _ e.tally _ _⟩,
    ⟨_, exec_answers (r := .resume) hs rfl (resumes _), s.onlyTally_taken p tag _ e.tally _ _⟩⟩

end Sys2Proof.Machine

/-! O16: the session end steps that vacate roles. A step's vacancies come first and its postings after them, because
neither looks at what the other writes. -/

namespace Sys2Proof.Machine

variable {s t : State} {p q : PortId}

/-! ## The free order -/

theorem insertByRank_perm {α : Type} (rank : α → Nat) (a : α) (l : List α) :
    (byRank.insertByRank rank a l).Perm (a :: l) := by
  induction l with
  | nil => exact .refl _
  | cons b l ih =>
    unfold byRank.insertByRank
    split
    · exact .refl _
    · exact (ih.cons b).trans (.swap a b l)

theorem byRank_perm {α : Type} (rank : α → Nat) (l : List α) : (byRank rank l).Perm l := by
  induction l with
  | nil => exact .refl _
  | cons a l ih => exact (insertByRank_perm rank a _).trans (ih.cons a)

theorem State.administered_nodup (s : State) (p : PortId) : (s.administered p).Nodup :=
  (byRank_perm _ _).nodup_iff.mpr ((List.nodup_finRange 256).filter _)

theorem State.mem_administered {u : TallyId} : u ∈ s.administered p ↔ (s.tally u).admin = some p := by
  rw [State.administered, (byRank_perm _ _).mem_iff]
  simp

theorem State.administeredGroups_nodup (s : State) (p : PortId) : (s.administeredGroups p).Nodup :=
  (byRank_perm _ _).nodup_iff.mpr ((List.nodup_finRange 8).filter _)

theorem State.mem_administeredGroups {g : GroupId} : g ∈ s.administeredGroups p ↔ (s.group g).admin = some p := by
  rw [State.administeredGroups, (byRank_perm _ _).mem_iff]
  simp

/-! ## Postings commute with writes of tallies and groups -/

/-- Two states that differ at most in the tallies, and hold the same ones. -/
theorem State.ext_tallies {a b : State} (h : ∀ u, a.tally u = b.tally u) (rest : a = { b with tallies := a.tallies }) :
    a = b := by
  have same : a.tallies = b.tallies := Vector.ext fun i hi => h ⟨i, hi⟩
  rw [rest, same]

/-- Two states that differ at most in the groups, and hold the same ones. -/
theorem State.ext_groups {a b : State} (h : ∀ g, a.group g = b.group g) (rest : a = { b with groups := a.groups }) :
    a = b := by
  have same : a.groups = b.groups := Vector.ext fun i hi => h ⟨i, hi⟩
  rw [rest, same]

theorem State.mapTallies_postList (s : State) (f : TallyId → Tally → Tally) (l : List Posting) :
    (s.postList l).mapTallies f = (s.mapTallies f).postList l := by
  induction l generalizing s with
  | nil => rfl
  | cons e l ih =>
    have one : (s.post e.1 e.2.1 e.2.2.1 e.2.2.2).mapTallies f = (s.mapTallies f).post e.1 e.2.1 e.2.2.1 e.2.2.2 := by
      unfold State.post
      rw [State.port_mapTallies]
      split <;> rfl
    rw [State.postList_cons, ih, one, State.postList_cons]

/-- Change every group record in one action. -/
def State.mapGroups (s : State) (f : GroupId → Group → Group) : State :=
  { s with groups := tabulate fun g => f g (s.group g) }

@[simp] theorem State.group_mapGroups (f : GroupId → Group → Group) (g : GroupId) :
    (s.mapGroups f).group g = f g (s.group g) := tabulate_get _ g

@[simp] theorem State.tally_mapGroups (f : GroupId → Group → Group) (u : TallyId) :
    (s.mapGroups f).tally u = s.tally u := rfl

@[simp] theorem State.port_mapGroups (f : GroupId → Group → Group) (p : PortId) :
    (s.mapGroups f).port p = s.port p := rfl

@[simp] theorem State.ring_mapGroups (f : GroupId → Group → Group) (g : GroupId) :
    (s.mapGroups f).ring g = s.ring g := rfl

theorem State.mapGroups_postList (s : State) (f : GroupId → Group → Group) (l : List Posting) :
    (s.postList l).mapGroups f = (s.mapGroups f).postList l := by
  induction l generalizing s with
  | nil => rfl
  | cons e l ih =>
    have one : (s.post e.1 e.2.1 e.2.2.1 e.2.2.2).mapGroups f = (s.mapGroups f).post e.1 e.2.1 e.2.2.1 e.2.2.2 := by
      unfold State.post
      rw [State.port_mapGroups]
      split <;> rfl
    rw [State.postList_cons, ih, one, State.postList_cons]

/-! ## All vacancies, then all postings -/

/-- The tallies of a list get a vacant administrator. -/
def State.vacatedTallies (s : State) (l : List TallyId) : State :=
  s.mapTallies fun u x => if u ∈ l then { x with admin := none } else x

/-- The groups of a list get a vacant administrator. -/
def State.vacatedGroups (s : State) (l : List GroupId) : State :=
  s.mapGroups fun g x => if g ∈ l then { x with admin := none } else x

/-- ADMIN_VACANT of each tally of a list, to the other ports bound to it (R23). -/
def State.tallyNotices (s : State) (p : PortId) (l : List TallyId) : List Posting :=
  l.flatMap fun u => (s.othersBound p u).map fun q => (q, .adminVacant, .tally u, .port p)

/-- ADMIN_VACANT of each group of a list, to the other ports bound to a member (R100). -/
def State.groupNotices (s : State) (p : PortId) (l : List GroupId) : List Posting :=
  l.flatMap fun g => (s.othersInGroup p g).map fun q => (q, .adminVacant, .group g, .port p)

@[simp] theorem State.bound_postList (l : List Posting) (q : PortId) (u : TallyId) :
    (s.postList l).bound q u = s.bound q u := by simp [State.bound]

theorem State.foldl_vacateTally (s : State) (p : PortId) (l : List TallyId) :
    l.foldl (fun s u => s.vacateTally p u) s = (s.vacatedTallies l).postList (s.tallyNotices p l) := by
  induction l generalizing s with
  | nil =>
    refine State.ext_tallies (fun u => ?_) rfl
    simp [State.tallyNotices, State.vacatedTallies]
  | cons u l ih =>
    have vacated : (s.setTally u { s.tally u with admin := none }).vacatedTallies l = s.vacatedTallies (u :: l) := by
      refine State.ext_tallies (fun v => ?_) rfl
      simp only [State.vacatedTallies, State.tally_mapTallies, State.tally_setTally, List.mem_cons]
      by_cases hv : v = u <;> by_cases hl : v ∈ l <;> simp [hv, hl]
    have notices : (s.vacateTally p u).tallyNotices p l = s.tallyNotices p l := by
      simp only [State.tallyNotices, State.othersBound, State.vacateTally, State.postTo_eq, State.bound_postList]
      rfl
    rw [List.foldl_cons, ih, notices, State.vacateTally, State.postTo_eq, State.vacatedTallies,
      State.mapTallies_postList, ← State.vacatedTallies, vacated, ← State.postList_append]
    rfl

theorem State.foldl_vacateGroup (s : State) (p : PortId) (l : List GroupId) :
    l.foldl (fun s g => s.vacateGroup p g) s = (s.vacatedGroups l).postList (s.groupNotices p l) := by
  induction l generalizing s with
  | nil =>
    refine State.ext_groups (fun g => ?_) rfl
    simp [State.groupNotices, State.vacatedGroups]
  | cons g l ih =>
    have vacated : (s.setGroup g { s.group g with admin := none }).vacatedGroups l = s.vacatedGroups (g :: l) := by
      refine State.ext_groups (fun k => ?_) rfl
      simp only [State.vacatedGroups, State.group_mapGroups, State.group_setGroup, List.mem_cons]
      by_cases hk : k = g <;> by_cases hl : k ∈ l <;> simp [hk, hl]
    have notices : (s.vacateGroup p g).groupNotices p l = s.groupNotices p l := by
      simp only [State.groupNotices, State.othersInGroup, State.membersOf, State.vacateGroup, State.postTo_eq,
        State.bound_postList, State.tally_postList]
      rfl
    rw [List.foldl_cons, ih, notices, State.vacateGroup, State.postTo_eq, State.vacatedGroups,
      State.mapGroups_postList, ← State.vacatedGroups, vacated, ← State.postList_append]
    rfl

/-! ## What each port receives -/

/-- Of one event for each entry of a list, each to some ports named once, a port receives those addressed to it. -/
theorem postedTo_flatMap {α : Type} (l : List α) (ps : α → List PortId) (hp : ∀ a, (ps a).Nodup)
    (e : α → EventKind × Subject × Detail) (q : PortId) :
    postedTo (l.flatMap fun a => (ps a).map fun p => (p, e a)) q = (l.filter fun a => q ∈ ps a).map e := by
  induction l with
  | nil => rfl
  | cons a l ih =>
    rw [List.flatMap_cons, postedTo_append, ih, postedTo_map q _ (hp a), List.filter_cons]
    by_cases h : q ∈ ps a <;> simp [h]

/-- What a step of a session end that posts and goes on to the next step leaves of the ports (R164). -/
theorem State.ports_after_step {s₀ : State} (same : ∀ q, s₀.port q = s.port q) (l : List Posting) (p : PortId)
    (step : EndStep) :
    let t := ((s₀.postList l).noteStep p (some step)).draw
    s.eventsAre t (postedTo l) ∧ (t.port p).sessionEnd = some step ∧
      (t.port p).session = (s.port p).session ∧ (t.port p).number = (s.port p).number ∧
      (t.port p).reason = (s.port p).reason ∧ (t.port p).slot = (s.port p).slot ∧
      (t.port p).link = (s.port p).link ∧ (t.port p).prst = (s.port p).prst ∧
      (t.port p).posting = (s.port p).posting ∧ (t.port p).view = (s.port p).view ∧
      (t.port p).fifo = (s.port p).fifo ∧ ∀ q, q ≠ p → (s.port q).sameButEvents (t.port q) := by
  refine ⟨fun q => ?_, ?_⟩
  · have events := s₀.events_postList q l
    rw [same] at events
    rw [← events, State.noteStep, State.port_draw, State.port_setPort]
    split <;> simp [*]
  · simp only [State.noteStep, State.port_draw, State.port_setPort_self, Port.driveAlert_sessionEnd,
      Port.driveAlert_session, Port.driveAlert_number, Port.driveAlert_reason, Port.driveAlert_slot,
      Port.driveAlert_link, Port.driveAlert_prst, Port.driveAlert_posting, Port.driveAlert_view, Port.driveAlert_fifo,
      State.session_postList, State.number_postList, State.reason_postList, State.slot_postList, State.link_postList,
      State.prst_postList, State.posting_postList, State.view_postList, State.fifo_postList, same, true_and]
    intro q hq
    rw [State.port_setPort_ne _ _ _ _ hq, ← same q]
    exact s₀.sameButEvents_postList q l

theorem exec_sessionEndTallyAdmin (awake : s.resetPin = false) (idle : (s.port p).posting = none)
    (due : (s.port p).sessionEnd = some .tallyAdmin) :
    exec (.sessionEndTallyAdmin p) s = .next (((s.vacatedTallies (s.administered p)).postList
      (s.tallyNotices p (s.administered p))).noteStep p (some .groupAdmin)).draw := by
  rw [← State.foldl_vacateTally]
  show Host.Outcome.next (s.unlessReset _) = _
  simp [State.unlessReset, State.whenDue, awake, idle, due, State.endTallyAdmin]

theorem exec_sessionEndGroupAdmin (awake : s.resetPin = false) (idle : (s.port p).posting = none)
    (due : (s.port p).sessionEnd = some .groupAdmin) :
    exec (.sessionEndGroupAdmin p) s = .next (((s.vacatedGroups (s.administeredGroups p)).postList
      (s.groupNotices p (s.administeredGroups p))).noteStep p (some .events)).draw := by
  rw [← State.foldl_vacateGroup]
  show Host.Outcome.next (s.unlessReset _) = _
  simp [State.unlessReset, State.whenDue, awake, idle, due, State.endGroupAdmin]

theorem State.postedTo_tallyNotices (s : State) (p : PortId) (l : List TallyId) (q : PortId) :
    postedTo (s.tallyNotices p l) q = if q = p then [] else
      (l.filter fun u => s.bound q u).map fun u => (.adminVacant, .tally u, .port p) := by
  rw [State.tallyNotices, postedTo_flatMap _ (s.othersBound p) (fun u => (List.nodup_finRange 4).filter _)]
  split <;> simp [State.othersBound, *]

theorem State.postedTo_groupNotices (s : State) (p : PortId) (l : List GroupId) (q : PortId) :
    postedTo (s.groupNotices p l) q = if q = p then [] else
      (l.filter fun g => (s.membersOf g).any fun u => s.bound q u).map fun g => (.adminVacant, .group g, .port p) := by
  rw [State.groupNotices, postedTo_flatMap _ (s.othersInGroup p) (fun g => (List.nodup_finRange 4).filter _)]
  have others : ∀ g, decide (q ∈ s.othersInGroup p g) = (q != p && (s.membersOf g).any fun u => s.bound q u) := by
    intro g
    rw [Bool.eq_iff_iff]
    simp [State.othersInGroup]
  simp only [others]
  split
  · rename_i hq; simp [hq]
  · rename_i hq; simp only [bne_iff_ne.mpr hq, Bool.true_and]

/-- Settles O16: the order of the vacancies is the free order of the session end. -/
theorem sessionEndVacatesRoles : Obligations.SessionEndVacatesRoles := by
  intro s p awake idle
  refine ⟨fun due => ?_, fun due => ?_⟩
  · have ports := State.ports_after_step (s := s) (s₀ := s.vacatedTallies (s.administered p)) (fun _ => rfl)
      (s.tallyNotices p (s.administered p)) p .groupAdmin
    simp only [idle, funext (s.postedTo_tallyNotices p _)] at ports
    obtain ⟨events, sessionEnd, session, number, reason, slot, link, prst, posting, view, fifo, others⟩ := ports
    refine ⟨_, s.administered p, exec_sessionEndTallyAdmin awake idle due, s.administered_nodup p,
      fun _ => State.mem_administered, fun u => ?_, events, sessionEnd, session, number, reason, slot, link, prst,
      posting, view, fifo, others, fun g => ?_, ⟨fun g => ?_, ?_⟩, ?_, ?_, ?_⟩
    · simp [State.noteStep, State.vacatedTallies, State.mem_administered]
    all_goals simp [State.noteStep, State.vacatedTallies]
  · have ports := State.ports_after_step (s := s) (s₀ := s.vacatedGroups (s.administeredGroups p)) (fun _ => rfl)
      (s.groupNotices p (s.administeredGroups p)) p .events
    simp only [idle, funext (s.postedTo_groupNotices p _)] at ports
    obtain ⟨events, sessionEnd, session, number, reason, slot, link, prst, posting, view, fifo, others⟩ := ports
    refine ⟨_, s.administeredGroups p, exec_sessionEndGroupAdmin awake idle due, s.administeredGroups_nodup p,
      fun _ => State.mem_administeredGroups, fun g => ?_, events, sessionEnd, session, number, reason, slot, link, prst,
      posting, view, fifo, others, fun u => ?_, ⟨fun g => ?_, ?_⟩, ?_, ?_, ?_⟩
    · simp [State.noteStep, State.vacatedGroups, State.mem_administeredGroups]
    case refine_2.refine_2 | refine_2.refine_3 => simp [State.noteStep, State.vacatedGroups]
    all_goals simp [State.noteStep]; rfl

end Sys2Proof.Machine

/-! O41: a first touch of an owed tally is the copy step and then the same action. -/

namespace Sys2Proof.Machine

variable {s : State} {p q : PortId} {tag : Byte} {u : TallyId} {h : HandleId} {e : ViewEntry}

/-! ## A touch after the copy step -/

theorem State.touch_copyStep (owed : s.owed u = true) : (s.copyStep u).touch u = s.touch u := by
  rw [State.touch_of_not_owed _ _ (s.owed_copyStep u), State.touch_of_owed _ _ owed]

/-- Taking a frame and copying a tally move different tables. -/
theorem State.taken_copyStep (s : State) (p : PortId) (tag : Byte) (n : Nat) (u : TallyId) :
    (s.copyStep u).taken p tag n = (s.taken p tag n).copyStep u := rfl

theorem State.serves_copyStep (hs : s.serves p) (u : TallyId) : (s.copyStep u).serves p := hs

@[simp] theorem State.viewEntry_copyStep (s : State) (u : TallyId) (p : PortId) (h : HandleId) :
    (s.copyStep u).viewEntry p h = s.viewEntry p h := rfl

theorem State.rightsOf_copyStep (s : State) (u v : TallyId) (p : PortId) :
    (s.copyStep u).rightsOf p v = s.rightsOf p v := by
  unfold State.rightsOf
  rw [State.tally_copyStep]
  split <;> simp [*]

theorem State.admin_copyStep (s : State) (u v : TallyId) : ((s.copyStep u).tally v).admin = (s.tally v).admin := by
  rw [State.tally_copyStep]
  split <;> simp [*]

/-! ## The six requests -/

/-- Direct access by a caller with the right acts on the touched state (R66, R67). -/
theorem State.direct_granted (entry : s.viewEntry p h = some e) {right : Rights → Bool}
    (granted : right (s.rightsOf p e.tally) = true) (act : State → TallyId → Reply) :
    s.direct p (some h) right act = act (s.touch e.tally) e.tally := by
  rw [State.direct, State.onHandle_bound entry]
  exact if_pos granted

theorem State.direct_copyStep (entry : s.viewEntry p h = some e) {right : Rights → Bool}
    (granted : right (s.rightsOf p e.tally) = true) (owed : s.owed e.tally = true) (act : State → TallyId → Reply) :
    (s.copyStep e.tally).direct p (some h) right act = s.direct p (some h) right act := by
  rw [State.direct_granted entry granted, State.direct_granted (s := s.copyStep e.tally) entry
    (by rwa [State.rightsOf_copyStep]), State.touch_copyStep owed]

theorem State.setTallyState_copyStep (owed : s.owed u = true) (st : TallyState) :
    (s.copyStep u).setTallyState u st = s.setTallyState u st := by
  rw [State.setTallyState, State.touch_copyStep owed, State.setTallyState]

/-- Each of the six requests does the same before and after the copy step (R5, R67, R96). -/
theorem actOf_copyStep {r : Req} {rest : List Byte}
    (hr : r ∈ [Req.read, .take, .exchange, .clearFlags, .freeze, .resume]) (entry : s.viewEntry p h = some e)
    (owed : s.owed e.tally = true) (standing : s.standing p e.tally r = none)
    (hf : fieldsInRange r (handleByte h :: rest)) :
    actOf r (s.copyStep e.tally) p tag (handleByte h :: rest) = actOf r s p tag (handleByte h :: rest) := by
  have right : ∀ b : Bool, (if b then none else some Status.noRight) = none → b = true := by
    intro b hb
    cases b
    · cases hb
    · rfl
  have admin : (if (s.tally e.tally).admin = some p then none else some Status.notAdmin) = none →
      (s.tally e.tally).admin = some p := by
    intro ha
    split at ha
    · assumption
    · cases ha
  have head : readHandle (byteAt (handleByte h :: rest) 0) = some h := by simp
  simp only [List.mem_cons, List.not_mem_nil, or_false] at hr
  rcases hr with rfl | rfl | rfl | rfl | rfl | rfl
  · simp only [actOf, actRead, head]
    exact State.direct_copyStep entry (right _ standing) owed _
  · simp only [actOf, actTake, head]
    exact State.direct_copyStep entry (right _ standing) owed _
  · obtain ⟨-, h1, h10⟩ := hf
    obtain ⟨v, hv⟩ := readSigned_of_lt h1 (fieldAt (handleByte h :: rest) 2 8)
    obtain ⟨w, hw⟩ := readSigned_of_lt h10 (fieldAt (handleByte h :: rest) 11 8)
    simp only [actOf, actExchange, hv, hw, head]
    exact State.direct_copyStep entry (right _ standing) owed _
  · simp only [actOf, actClearFlags, head]
    exact State.direct_copyStep entry (right _ standing) owed _
  all_goals
    simp only [actOf, actFreeze, actResume, head]
    rw [State.onHandle_bound entry, State.onHandle_bound (s := s.copyStep e.tally) entry,
      State.asTallyAdmin_admin (admin standing),
      State.asTallyAdmin_admin (by rw [State.admin_copyStep]; exact admin standing), State.setTallyState_copyStep owed]

/-! ## The apply -/

/-- The arbiter grants the port whose turn it is (R52). -/
theorem State.granted_of_turnOf {x : Staged} {rest : List Staged} (turn : s.turnOf q x rest) : s.granted = some q := by
  obtain ⟨head, k, rfl, earlier⟩ := turn
  have here : (s.port (s.pointer + k)).fifo.isEmpty = false := by simp [head]
  have before : ∀ j : Fin 4, j < k → (s.port (s.pointer + j)).fifo.isEmpty = true := fun j hj => by simp [earlier j hj]
  have index : ∀ k : Fin 4, k = 0 ∨ k = 1 ∨ k = 2 ∨ k = 3 := by decide
  rcases index k with rfl | rfl | rfl | rfl
  · rw [add_zero] at here ⊢
    simp [State.granted, here]
  · have b0 := before 0 (by decide)
    rw [add_zero] at b0
    simp [State.granted, here, b0]
  · have b0 := before 0 (by decide)
    rw [add_zero] at b0
    simp [State.granted, here, b0, before 1 (by decide)]
  · have b0 := before 0 (by decide)
    rw [add_zero] at b0
    simp [State.granted, here, b0, before 1 (by decide), before 2 (by decide)]

theorem State.applyContribution_copyStep {x : Staged} (owed : s.owed x.tally = true) :
    (s.copyStep x.tally).applyContribution x = s.applyContribution x := by
  unfold State.applyContribution
  rw [State.touch_copyStep owed]

theorem exec_apply_of_turnOf {x : Staged} {rest : List Staged} (awake : s.resetPin = false)
    (turn : s.turnOf q x rest) : exec .apply s = .next (s.serve q x rest) := by
  show Host.Outcome.next (s.unlessReset _) = _
  simp [State.unlessReset, awake, State.applyNext, State.granted_of_turnOf turn, turn.1]

/-- Settles O41: taking the frame and the checks look at nothing the copy step writes, and a second touch finds the
tally no longer owed. -/
theorem firstTouchDoesTheCopyStep : Obligations.FirstTouchDoesTheCopyStep := by
  intro s u owed
  refine ⟨s.owed_copyStep u, fun p tag h e rest r hr hs entry hu standing ha hf => ?_, fun q x rest awake turn hu => ?_⟩
  · subst hu
    have same := actOf_copyStep (s := s.taken p tag (frameBits (handleByte h :: rest))) (tag := tag) hr
      (s.viewEntry_taken_of entry _) (by simpa using owed) (standing := by cases r <;> exact standing) hf
    rw [exec_requestCommand, exec_requestCommand, State.request_served _ p tag r _ _ hs (accepts_length ha) ha,
      State.request_served _ p tag r _ _ (State.serves_copyStep hs _) (accepts_length ha) ha, State.taken_copyStep, same]
  · subst hu
    have turn' : (s.copyStep x.tally).turnOf q x rest := turn
    rw [exec_apply_of_turnOf awake turn, exec_apply_of_turnOf (s := s.copyStep x.tally) awake turn', State.serve,
      State.serve, State.applyContribution_copyStep owed]

end Sys2Proof.Machine

/-! O4 and O60: RESET#, and the state after it. -/

namespace Sys2Proof.Machine

variable {s t : State} {p : PortId}

/-! ## While RESET# is asserted -/

/-- Nothing behind the ports moves, and of each port at most the link state, SOn, PRSTn# and ALERTn#. -/
def State.atRest (s t : State) : Prop :=
  s.sameBehindPorts t ∧ ∀ p,
    (t.port p).session = (s.port p).session ∧ (t.port p).number = (s.port p).number ∧
      (t.port p).slot = (s.port p).slot ∧ (t.port p).reason = (s.port p).reason ∧
      (t.port p).sessionEnd = (s.port p).sessionEnd ∧ (t.port p).posting = (s.port p).posting ∧
      (s.port p).sameTables (t.port p)

theorem State.atRest.refl (s : State) : s.atRest s :=
  ⟨⟨fun _ => rfl, fun _ => rfl, ⟨fun _ => rfl, rfl⟩, rfl, rfl, rfl⟩,
    fun _ => ⟨rfl, rfl, rfl, rfl, rfl, rfl, rfl, rfl, rfl⟩⟩

/-- A write of a port's link state, SOn and PRSTn#. -/
theorem State.atRest.setPort (s : State) (p : PortId) (link : LinkState) (so : List Bool) (prst : Bool) :
    s.atRest (s.setPort p { s.port p with link := link, so := so, prst := prst }) := by
  refine ⟨⟨fun _ => rfl, fun _ => rfl, ⟨fun _ => rfl, rfl⟩, rfl, rfl, rfl⟩, fun q => ?_⟩
  rw [State.port_setPort]
  split
  · subst q; exact ⟨rfl, rfl, rfl, rfl, rfl, rfl, rfl, rfl, rfl⟩
  · exact ⟨rfl, rfl, rfl, rfl, rfl, rfl, rfl, rfl, rfl⟩

theorem State.atRest.ignoreTransaction (s : State) (p : PortId) (rises : Bool) :
    s.atRest (s.ignoreTransaction p rises) :=
  .setPort s p (if rises then .idle else .abandoned) [] (s.port p).prst

/-- A transaction under RESET# is ignored (R166). -/
theorem exec_transaction_atRest (c : Instr) (asserted : s.resetPin = true) (hp : transactionPort c = some p) :
    ∃ t, exec c s = .next t ∧ s.atRest t := by
  have transact : ∀ si rises, s.atRest (s.transact p si rises) := by
    intro si rises
    rw [State.transact, if_pos asserted]
    exact .ignoreTransaction s p rises
  have request : ∀ f run, s.atRest (s.requestTransaction p f run) := by
    intro f run
    rw [State.requestTransaction, if_pos asserted]
    exact .ignoreTransaction s p true
  cases c
  case status | fetch | unknownType | frameRefused | transactionWithoutType => cases hp; exact ⟨_, rfl, transact _ _⟩
  case abandonedTransactionEnd q n =>
    cases hp
    refine ⟨_, rfl, ?_⟩
    rw [State.endAbandoned, if_pos asserted]
    split
    · exact .ignoreTransaction s p true
    · exact .refl s
  case post q tag pl part => cases part <;> cases hp <;> exact ⟨_, rfl, request _ _⟩
  case unknownRequest | hello | leave | setMask | takeEvent | ackEvent | define | retire | grant | freeze | resume
      | claimTally | setLimit | bind | unbind | drain | read | take | exchange | clearFlags | claimGroup | setGroup
      | close | groupStatus | snapList | readSnap | release =>
    cases hp; exact ⟨_, rfl, request _ _⟩
  all_goals cases hp

/-- No internal action happens under RESET#, and of a pin PRSTn# only the level is noted (R166). -/
theorem exec_internal_atRest (c : Instr) (asserted : s.resetPin = true) (hp : transactionPort c = none)
    (ha : c ≠ .resetAssert) (hr : c ≠ .resetRelease) : ∃ t, exec c s = .next t ∧ s.atRest t := by
  have still : ∀ f, s.atRest (s.unlessReset f) := by
    intro f
    rw [State.unlessReset, if_pos asserted]
    exact .refl s
  cases c
  case resetAssert => exact absurd rfl ha
  case resetRelease => exact absurd rfl hr
  case post q tag pl part => cases part <;> cases hp; exact ⟨_, rfl, still _⟩
  case helloOpenSession | sessionEndViews | sessionEndReaders | sessionEndTallyAdmin | sessionEndGroupAdmin
      | sessionEndEvents | apply | tick | timedCloseAttempt | copierStep | closeEnd =>
    exact ⟨_, rfl, still _⟩
  case prstAssert q =>
    refine ⟨_, rfl, ?_⟩
    rw [State.assertPrst, if_pos asserted]
    exact .setPort s q (s.port q).link (s.port q).so true
  case prstRelease q => exact ⟨_, rfl, .setPort s q (s.port q).link (s.port q).so false⟩
  all_goals cases hp

theorem LinkState.cut_eq (l : LinkState) : l.cut = if l = .idle then .idle else .abandoned := by
  cases l <;> rfl

/-- Settles O4: the reset values are those of `State.assertReset`; under RESET# every command leaves the part at rest. -/
theorem resetReturnsEveryBlock : Obligations.ResetReturnsEveryBlock := by
  intro s
  refine ⟨⟨_, rfl, rfl, fun u => s.tally_assertReset u, fun g => ⟨s.group_assertReset g, s.ring_assertReset g⟩, rfl, rfl,
    fun p => ?_⟩, ⟨_, rfl, rfl, fun _ => rfl, fun _ => rfl, ⟨fun _ => rfl, rfl⟩, rfl, fun _ => rfl⟩,
    fun c asserted ha hr => ?_⟩
  · have cleared : ∀ h, s.assertReset.viewEntry p h = none := by
      intro h
      simp [State.viewEntry, Port.deviceReset, Port.atReset]
    rw [State.port_assertReset]
    exact ⟨rfl, rfl, rfl, rfl, rfl, rfl, cleared, rfl, rfl, rfl, rfl, rfl, (s.port p).link.cut_eq⟩
  · cases hp : transactionPort c with
    | some p => exact exec_transaction_atRest c asserted hp
    | none => exact exec_internal_atRest c asserted hp ha hr

/-! ## The state after RESET# -/

@[simp] theorem State.tally_reset (u : TallyId) : State.reset.tally u = Tally.cleared := by
  simp [State.tally, State.reset]

@[simp] theorem State.port_reset (p : PortId) : State.reset.port p = Port.atReset := by
  simp [State.port, State.reset]

@[simp] theorem State.group_reset (g : GroupId) : State.reset.group g = Group.atReset := by
  simp [State.group, State.reset]

@[simp] theorem State.ring_reset (g : GroupId) : State.reset.ring g = [] := by
  simp [State.ring, State.reset]

@[simp] theorem State.viewEntry_reset (p : PortId) (h : HandleId) : State.reset.viewEntry p h = none := by
  simp [State.viewEntry, Port.atReset]

theorem State.reset_alertsFollow : State.reset.AlertsFollow := by
  rw [State.alertsFollow_iff]
  intro p
  rw [State.port_reset]
  rfl

theorem State.reset_cellsConserved : State.reset.CellsConserved := by
  have held : State.reset.cellsInRings = 0 := by simp [State.cellsInRings, cellsHeld]
  rw [State.CellsConserved, held]
  rfl

theorem State.reset_countsAgree : State.reset.CountsAgree :=
  .of_cleared (by simp) (by simp [Port.atReset]) (by simp [Port.atReset])

theorem State.reset_storeSound : State.reset.StoreSound := by
  intro g
  simp [ringSound, Group.atReset]

theorem State.reset_eventsSound : State.reset.EventsSound := by
  intro p
  simp [Port.atReset, EventBlock.Sound, EventBlock.empty]

theorem State.reset_sessionsSound : State.reset.SessionsSound := by
  intro p
  simp [Port.atReset, Tally.cleared, Group.atReset]

theorem State.reset_tagsSound : State.reset.TagsSound := by
  refine ⟨fun g r hr => by simp at hr, fun u hu => ?_⟩
  simp [Tally.cleared, Tally.defined] at hu

theorem State.reset_fieldsSound : State.reset.FieldsSound :=
  (State.InRange.of_cleared (by simp) (by simp [Port.atReset]) (by simp [Port.atReset]) (by simp [Port.atReset])
    (by simp) (by simp)).fieldsSound State.reset_countsAgree

/-- Settles O60: every table is empty and every record cleared, so each invariant holds of them. -/
theorem resetIsSound : Obligations.ResetIsSound :=
  ⟨State.reset_alertsFollow, State.reset_cellsConserved, State.reset_countsAgree, State.reset_storeSound,
    State.reset_eventsSound, State.reset_sessionsSound, State.reset_tagsSound, State.reset_fieldsSound⟩

end Sys2Proof.Machine

/-! O14 and O27: what writes a port's view. BIND and UNBIND write one entry and one bind count; step 1 of a session
end removes every entry of the port. -/

namespace Sys2Proof.Machine

variable {s : State} {p : PortId} {tag : Byte} {pl : List Byte} {h : HandleId} {u : TallyId} {w : Nat}

/-! ## Step 1 of a session end -/

theorem exec_sessionEndViews (awake : s.resetPin = false) (idle : (s.port p).posting = none)
    (due : (s.port p).sessionEnd = some .views) : exec (.sessionEndViews p) s = .next (s.endViews p) := by
  show Host.Outcome.next (s.unlessReset _) = _
  simp [State.unlessReset, State.whenDue, awake, idle, due]

/-- Settles O14: the port's view is replaced whole, and every tally record loses the entries that named it. -/
theorem sessionEndUnbindsViews : Obligations.SessionEndUnbindsViews := by
  intro s p awake idle due
  have here := s.port_endViews p p
  rw [if_pos rfl] at here
  refine ⟨_, exec_sessionEndViews awake idle due, fun h => by simp [State.viewEntry_endViews],
    s.tally_endViews p, ?_⟩
  rw [here]
  refine ⟨rfl, rfl, rfl, rfl, rfl, rfl, rfl, idle, rfl, rfl, fun q hq => ?_, fun _ => rfl, ⟨fun _ => rfl, rfl⟩,
    rfl, rfl, rfl⟩
  rw [State.port_endViews, if_neg hq]

/-! ## The handle that names a tally -/

theorem entryNames_iff {o : Option ViewEntry} : entryNames u o = true ↔ ∃ e, o = some e ∧ e.tally = u := by
  cases o <;> simp

theorem State.handleOf_eq_none (unnamed : ∀ k e, s.viewEntry p k = some e → e.tally ≠ u) : s.handleOf p u = none := by
  refine List.find?_eq_none.mpr fun k _ named => ?_
  obtain ⟨e, entry, he⟩ := entryNames_iff.mp named
  exact unnamed k e entry he

theorem State.handleOf_eq_some {e : ViewEntry} (entry : s.viewEntry p h = some e) (names : e.tally = u)
    (only : ∀ k e', s.viewEntry p k = some e' → e'.tally = u → k = h) : s.handleOf p u = some h := by
  cases found : s.handleOf p u with
  | none => exact absurd (entryNames_iff.mpr ⟨e, entry, names⟩) (List.find?_eq_none.mp found h (List.mem_finRange h))
  | some k =>
    have named := List.find?_some (found : List.find? _ _ = some k)
    obtain ⟨e', entry', names'⟩ := entryNames_iff.mp named
    rw [only k e' entry' names']

@[simp] theorem State.handleOf_taken (s : State) (p : PortId) (tag : Byte) (n : Nat) (q : PortId) (u : TallyId) :
    (s.taken p tag n).handleOf q u = s.handleOf q u := by simp [State.handleOf]

theorem Rights.any_iff {x : Rights} : x.any = true ↔ x ≠ ⟨false, false, false, false⟩ := by
  obtain ⟨a, b, c, d⟩ := x
  simp [Rights.any, or_iff_not_imp_left]

/-! ## The outcomes of BIND, in the order of its checks (R28) -/

/-- The payload has its fields in range, and they are this handle, this tally and this weight. -/
structure bindFields (pl : List Byte) (h : HandleId) (u : TallyId) (w : Nat) : Prop where
  handle : readHandle (byteAt pl 0) = some h
  tally : readTally (byteAt pl 1) = u
  weight : readWeight (fieldAt pl 2 2) = some w

theorem bindFields_written (h : HandleId) (u : TallyId) (positive : 1 ≤ w) (range : w < 65536) :
    bindFields ([handleByte h, byteOf u.val] ++ beBytes 2 w) h u w := by
  have weight := fieldAt_append [handleByte h, byteOf u.val] [] 2 w (by omega)
  rw [List.append_nil] at weight
  exact ⟨readHandle_handleByte h, readTally_byteOf u, (congrArg readWeight weight).trans (if_neg (by omega))⟩

section

variable (fields : bindFields pl h u w) (tag : Byte)

include fields

theorem actBind_of_occupied {e : ViewEntry} (entry : s.viewEntry p h = some e) :
    actBind s p tag pl = s.reply .already [handleByte h, tallyByte e.tally] := by
  simp only [actBind, fields.handle, fields.weight, entry]

theorem actBind_of_free (vacant : s.viewEntry p h = none) (free : (s.tally u).state = .free) :
    actBind s p tag pl = s.deny .noTally := by
  simp only [actBind, fields.handle, fields.weight, fields.tally, vacant, if_pos free]

theorem actBind_of_no_rights (vacant : s.viewEntry p h = none) (defined : (s.tally u).state ≠ .free)
    (bare : s.rightsOf p u = ⟨false, false, false, false⟩) : actBind s p tag pl = s.deny .noRight := by
  simp only [actBind, fields.handle, fields.weight, fields.tally, vacant, if_neg defined, bare]
  rfl

variable (vacant : s.viewEntry p h = none) (defined : (s.tally u).state ≠ .free)
  (righted : s.rightsOf p u ≠ ⟨false, false, false, false⟩)

include vacant defined righted

theorem actBind_of_named {k : HandleId} (named : s.handleOf p u = some k) :
    actBind s p tag pl = s.reply .already [handleByte k, tallyByte u] := by
  simp [actBind, fields.handle, fields.weight, fields.tally, vacant, defined, Rights.any_iff.mpr righted, named]

theorem actBind_of_unnamed (unnamed : s.handleOf p u = none) :
    actBind s p tag pl = ((s.setView p h (some ⟨u, w⟩)).setTally u
        { s.tally u with bindCount := (s.tally u).bindCount + 1 }).reply .ok
      [handleByte h, tallyByte u, (s.tally u).kind.code, groupByte (s.tally u).group, (s.rightsOf p u).code,
        byteOf ((s.tally u).bindCount + 1)] := by
  simp [actBind, fields.handle, fields.weight, fields.tally, vacant, defined, Rights.any_iff.mpr righted, unnamed,
    State.countBind]

end

/-! ## UNBIND (R30) -/

theorem actUnbind_eq {e : ViewEntry} (entry : s.viewEntry p h = some e) (tag : Byte) :
    actUnbind s p tag [handleByte h] = ((s.setView p h none).setTally e.tally
        { s.tally e.tally with bindCount := (s.tally e.tally).bindCount - 1 }).reply .ok
      [tallyByte e.tally, byteOf ((s.tally e.tally).bindCount - 1)] := by
  rw [actUnbind, byteAt_zero, readHandle_handleByte, State.onHandle_bound entry]
  simp [State.countUnbind]

/-! ## Answers that come with a new view entry -/

/-- The entry under handle `h` of port `p` is now `o`; beside it, the answer and the tally records, nothing changed. -/
def State.onlyEntry (s t : State) (p : PortId) (h : HandleId) (o : Option ViewEntry) : Prop :=
  t.viewEntry p h = o ∧ (∀ k, k ≠ h → t.viewEntry p k = s.viewEntry p k) ∧ (s.port p).sameEngine (t.port p) ∧
    (t.port p).fifo = (s.port p).fifo ∧ (t.port p).events = (s.port p).events ∧ s.samePortsBut t p ∧
    s.sameGroups t ∧ s.sameStore t ∧ s.sameRest t

/-- An answer on the state with the frame taken, one view entry and one tally written. -/
theorem State.onlyEntry_taken (s : State) (p : PortId) (tag : Byte) (n : Nat) (h : HandleId) (o : Option ViewEntry)
    (u : TallyId) (y : Tally) (a : Answer) :
    let t := (((s.taken p tag n).setView p h o).setTally u y).respond p tag a
    s.answeredTo t p tag a.status a.payload ∧ s.onlyEntry t p h o ∧ t.tally u = y ∧ s.sameTalliesBut t u := by
  refine ⟨⟨?_, ?_⟩, ⟨?_, fun k hk => ?_, ?_, ?_, ?_, fun q hq => ?_, fun _ => rfl, ⟨fun _ => rfl, rfl⟩, rfl, rfl, rfl⟩,
    by simp, fun v hv => by simp [hv]⟩
  · simp [State.setView]
  · simp [State.setView]
  · simp [State.viewEntry_setView]
  · simp [State.viewEntry_setView, hk]
  · simp [State.setView, Port.sameEngine]
  · simp [State.setView]
  · simp [State.setView]
  · simp [State.setView, hq]

/-- Settles O27: the five outcomes are the branches of BIND and the two writes share one frame, read on the state with
the frame taken. -/
theorem bindAndUnbind : Obligations.BindAndUnbind := by
  intro s p tag h hs
  refine ⟨fun u w positive range => ?_, fun e entry => ?_⟩
  · have fields := bindFields_written h u positive range
    have vacant_taken : s.viewEntry p h = none → ∀ n, (s.taken p tag n).viewEntry p h = none :=
      fun vacant n => by simpa using vacant
    refine ⟨fun e entry => ?_, fun vacant free => ?_, fun vacant defined bare => ?_,
      fun vacant defined righted => ⟨fun k e entry names only => ?_, fun unnamed => ?_⟩⟩
    · exact exec_denies (r := .bind) hs rfl (actBind_of_occupied fields tag (s.viewEntry_taken_of entry _))
    · exact exec_denies (r := .bind) hs rfl (actBind_of_free fields tag (vacant_taken vacant _) free)
    · exact exec_denies (r := .bind) hs rfl (actBind_of_no_rights fields tag (vacant_taken vacant _) defined bare)
    · have named := State.handleOf_eq_some entry names only
      exact exec_denies (r := .bind) hs rfl
        (actBind_of_named fields tag (vacant_taken vacant _) defined righted ((s.handleOf_taken ..).trans named))
    · have none_names := State.handleOf_eq_none unnamed
      have acts := fun n => actBind_of_unnamed (s := s.taken p tag n) fields tag (vacant_taken vacant n) defined righted
        ((s.handleOf_taken ..).trans none_names)
      exact ⟨_, exec_answers (r := .bind) hs rfl (acts _), s.onlyEntry_taken p tag _ h _ u _ _⟩
  · exact ⟨_, exec_answers (r := .unbind) hs rfl (actUnbind_eq (s.viewEntry_taken_of entry _) tag),
      s.onlyEntry_taken p tag _ h none e.tally _ _⟩

end Sys2Proof.Machine

/-! O28 to O30: POST and DRAIN. An examined entry is staged or not; what a POST stages is the list of its staged
entries, one after the other. -/

namespace Sys2Proof.Machine

variable {s t w : State} {p : PortId} {tag : Byte} {h : Byte} {q : BitVec 32} {l m : List Staged}
  {es : List (Byte × BitVec 32)}

/-! ## DRAIN (R64) -/

/-- A served request that its block leaves waiting. -/
theorem exec_waits {r : Req} {pl : List Byte} (hs : s.serves p) (ha : accepts r pl = true)
    (acts : actOf r (s.taken p tag (frameBits pl)) p tag pl = (t, none)) :
    exec (requestCommand r p tag pl) s = .next t := by
  rw [exec_requestCommand, s.request_served p tag r pl _ hs (accepts_length ha) ha, acts]

theorem actDrain_empty (empty : (s.port p).fifo = []) (tag : Byte) (pl : List Byte) :
    actDrain s p tag pl = s.reply .ok [] := by simp [actDrain, empty]

theorem actDrain_waits (staged : (s.port p).fifo ≠ []) (tag : Byte) (pl : List Byte) :
    actDrain s p tag pl = (s.setPort p { s.port p with slot := .working (.drain tag) }, none) := by
  simp [actDrain, staged]

/-- Settles O30: taking the frame leaves the FIFO, and a DRAIN that waits writes its slot alone. -/
theorem drainWaitsForTheFifo : Obligations.DrainWaitsForTheFifo := by
  intro s p tag hs
  refine ⟨fun empty => ?_, fun staged => ?_⟩
  · exact exec_denies (r := .drain) hs rfl (actDrain_empty (by simpa using empty) tag [])
  · refine ⟨_, exec_waits (r := .drain) hs rfl (actDrain_waits (by simpa using staged) tag []), ?_⟩
    refine ⟨by simp, by simp, ?_, fun r other => by simp [other], ?_⟩
    · simp [Port.sameButAnswer, Port.sameEngine, Port.sameTables]
    · exact ⟨fun _ => rfl, fun _ => rfl, ⟨fun _ => rfl, rfl⟩, rfl, rfl, rfl⟩

/-! ## Reading a POST payload (R169) -/

/-- The five bytes of one entry. -/
def entryBytes (e : Byte × BitVec 32) : List Byte := e.1 :: beBytes 4 e.2.toNat

theorem postPayload_eq (es : List (Byte × BitVec 32)) :
    postPayload es = byteOf es.length :: es.flatMap entryBytes := rfl

theorem length_entries (es : List (Byte × BitVec 32)) : (es.flatMap entryBytes).length = 5 * es.length := by
  induction es with
  | nil => rfl
  | cons e es ih =>
    rw [List.flatMap_cons, List.length_append, ih, entryBytes, List.length_cons, List.length_cons, beBytes_length]
    omega

theorem length_postPayload (es : List (Byte × BitVec 32)) : (postPayload es).length = 1 + 5 * es.length := by
  rw [postPayload_eq, List.length_cons, length_entries, Nat.add_comm]

/-- The bytes before and after an entry of a payload. -/
theorem entries_split {i : Nat} {e : Byte × BitVec 32} (he : es[i]? = some e) : ∃ before after,
    postPayload es = before ++ e.1 :: (beBytes 4 e.2.toNat ++ after) ∧ before.length = 1 + 5 * i := by
  obtain ⟨hi, rfl⟩ := List.getElem?_eq_some_iff.mp he
  refine ⟨byteOf es.length :: (es.take i).flatMap entryBytes, (es.drop (i + 1)).flatMap entryBytes, ?_, ?_⟩
  · have parts : es = es.take i ++ es[i] :: es.drop (i + 1) := by simp
    rw [postPayload_eq]
    conv_lhs => rw [parts, List.flatMap_append, List.flatMap_cons]
    simp [entryBytes]
  · rw [List.length_cons, length_entries, List.length_take]
    omega

theorem postEntries_postPayload (fits : es.length ≤ 8) : postEntries (postPayload es) = es := by
  have count : (byteAt (postPayload es) 0).toNat = es.length := byteOf_toNat (by omega)
  refine List.ext_getElem? fun i => ?_
  rw [postEntries, count, List.getElem?_map]
  rcases he : es[i]? with _ | e
  · simpa using he
  · obtain ⟨hi, -⟩ := List.getElem?_eq_some_iff.mp he
    obtain ⟨before, after, payload, place⟩ := entries_split he
    have head : byteAt (postPayload es) (1 + 5 * i) = e.1 := by
      rw [payload, byteAt, ← place]
      simp
    have quantity : fieldAt (postPayload es) (2 + 5 * i) 4 = e.2.toNat := by
      have field := fieldAt_append (before ++ [e.1]) after 4 e.2.toNat (by have := e.2.isLt; omega)
      rw [List.length_append, place, List.length_singleton, List.append_assoc, List.singleton_append] at field
      rw [payload, show 2 + 5 * i = 1 + 5 * i + 1 by omega, field]
    rw [List.getElem?_range hi, Option.map_some, head, quantity]
    simp [readQuantity]

theorem accepts_postPayload (some_entry : 1 ≤ es.length) (fits : es.length ≤ 8) :
    accepts .post (postPayload es) = true := by
  have count : (byteAt (postPayload es) 0).toNat = es.length := byteOf_toNat (by omega)
  simp [accepts, payloadLength, postLengthOk, count, length_postPayload, some_entry, fits]

/-! ## What staging leaves alone -/

/-- From `s` to `t` the contributions `l` of port `p` are staged, in order, and nothing else changes (R44, R48). -/
structure State.stages (s t : State) (p : PortId) (l : List Staged) : Prop where
  fifo : (t.port p).fifo = (s.port p).fifo ++ l
  tally : ∀ u, t.tally u =
    { s.tally u with stagedCount := (s.tally u).stagedCount + l.countP fun e => e.tally == u }
  engine : (s.port p).sameEngine (t.port p)
  slot : (t.port p).slot = (s.port p).slot
  reason : (t.port p).reason = (s.port p).reason
  view : (t.port p).view = (s.port p).view
  events : (t.port p).events = (s.port p).events
  ports : s.samePortsBut t p
  groups : s.sameGroups t
  store : s.sameStore t
  rest : s.sameRest t

theorem State.stages.refl (s : State) (p : PortId) : s.stages s p [] :=
  ⟨by simp, fun _ => rfl, ⟨rfl, rfl, rfl, rfl, rfl, rfl⟩, rfl, rfl, rfl, rfl, fun _ _ => rfl, fun _ => rfl,
    ⟨fun _ => rfl, rfl⟩, rfl, rfl, rfl⟩

theorem Port.sameEngine.trans {x y z : Port} (h : x.sameEngine y) (h' : y.sameEngine z) : x.sameEngine z := by
  simp only [Port.sameEngine] at *
  simp [h, h']

theorem State.sameStore.trans (a : s.sameStore t) (b : t.sameStore w) : s.sameStore w :=
  ⟨fun g => (b.1 g).trans (a.1 g), b.2.trans a.2⟩

theorem State.sameRest.trans (a : s.sameRest t) (b : t.sameRest w) : s.sameRest w := by
  obtain ⟨pointer, pin, queue⟩ := a
  obtain ⟨pointer', pin', queue'⟩ := b
  exact ⟨pointer'.trans pointer, pin'.trans pin, queue'.trans queue⟩

theorem State.stages.trans (a : s.stages t p l) (b : t.stages w p m) : s.stages w p (l ++ m) where
  fifo := by rw [b.fifo, a.fifo, List.append_assoc]
  tally u := by rw [b.tally, a.tally, List.countP_append, Nat.add_assoc]
  engine := a.engine.trans b.engine
  slot := b.slot.trans a.slot
  reason := b.reason.trans a.reason
  view := b.view.trans a.view
  events := b.events.trans a.events
  ports r other := (b.ports r other).trans (a.ports r other)
  groups g := (b.groups g).trans (a.groups g)
  store := a.store.trans b.store
  rest := a.rest.trans b.rest

theorem State.stage_stages (s : State) (p : PortId) (e : Staged) : s.stages (s.stage p e) p [e] where
  fifo := by simp [State.stage]
  tally u := by
    by_cases names : u = e.tally
    · subst names; simp [State.stage]
    · have other : (e.tally == u) = false := beq_eq_false_iff_ne.mpr (Ne.symm names)
      simp [State.stage, names, other]
  engine := by simp [State.stage, Port.sameEngine]
  slot := by simp [State.stage]
  reason := by simp [State.stage]
  view := by simp [State.stage]
  events := by simp [State.stage]
  ports r other := by simp [State.stage, other]
  groups _ := rfl
  store := ⟨fun _ => rfl, rfl⟩
  rest := ⟨rfl, rfl, rfl⟩

section
variable (a : s.stages t p l)
include a

theorem State.stages.viewEntry (k : HandleId) : t.viewEntry p k = s.viewEntry p k := by
  simp only [State.viewEntry, a.view]

theorem State.stages.rightsOf (u : TallyId) : t.rightsOf p u = s.rightsOf p u := by
  rw [State.rightsOf, a.tally]
  rfl

/-- Staging changes no later entry's checks. -/
theorem State.stages.entryStatus (h : Byte) : t.entryStatus p h = s.entryStatus p h := by
  simp only [State.entryStatus, a.viewEntry, a.rightsOf]

theorem State.stages.contributionOf (h : Byte) (q : BitVec 32) : t.contributionOf p h q = s.contributionOf p h q := by
  simp only [State.contributionOf, a.viewEntry]

theorem State.stages.stagedBy (es : List (Byte × BitVec 32)) (sts : List Status) :
    t.stagedBy p es sts = s.stagedBy p es sts := by
  simp only [State.stagedBy, a.contributionOf]

end

/-! ## The examination of one entry (R43, R44) -/

/-- The status the examination gives an entry: FULL where it passes its checks and finds no place (R43, R44). -/
def State.verdict (s : State) (p : PortId) (h : Byte) : Status :=
  if s.entryStatus p h = .ok ∧ ¬(s.port p).fifo.length < 8 then .full else s.entryStatus p h

/-- What one entry stages: its contribution when its status is OK (R44). -/
def State.stagedEntry (s : State) (p : PortId) (h : Byte) (q : BitVec 32) : List Staged :=
  if s.verdict p h = .ok then (s.contributionOf p h q).toList else []

theorem State.entryStatus_ne_full (s : State) (p : PortId) (h : Byte) : s.entryStatus p h ≠ .full := by
  unfold State.entryStatus
  split
  · split
    · nofun
    · split <;> nofun
  · nofun

/-- An entry passes its checks exactly when it has a view entry with the POST right, and then that is what it
stages (R43, R47). -/
theorem State.checkEntry_eq (s : State) (p : PortId) (h : Byte) :
    (∃ e, s.checkEntry p h = .ok e ∧ s.entryStatus p h = .ok ∧
      ∀ q : BitVec 32, s.contributionOf p h q = some ⟨e.tally, e.weight, q.toInt, p⟩) ∨
    (s.checkEntry p h = .error (s.entryStatus p h) ∧ s.entryStatus p h ≠ .ok) := by
  by_cases range : h.toNat < 64
  · have handle : readHandle h = some ⟨h.toNat, range⟩ := dif_pos range
    rcases entry : s.viewEntry p ⟨h.toNat, range⟩ with _ | e
    · simp [State.checkEntry, State.entryStatus, handle, range, entry]
    · cases right : (s.rightsOf p e.tally).post
      · simp [State.checkEntry, State.entryStatus, handle, range, entry, right]
      · simp [State.checkEntry, State.entryStatus, State.contributionOf, handle, range, entry, right]
  · have handle : readHandle h = none := dif_neg range
    simp [State.checkEntry, State.entryStatus, handle, range]

/-- An entry that is OK stages one contribution (R44). -/
theorem State.length_stagedEntry (ok : s.verdict p h = .ok) : (s.stagedEntry p h q).length = 1 := by
  have passes : s.entryStatus p h = .ok := by
    unfold State.verdict at ok
    split at ok
    · cases ok
    · exact ok
  obtain ⟨e, -, -, contribution⟩ | ⟨-, fails⟩ := s.checkEntry_eq p h
  · simp [State.stagedEntry, ok, contribution]
  · exact absurd passes fails

theorem State.examineEntry_stages (s : State) (p : PortId) (h : Byte) (q : BitVec 32) :
    (s.examineEntry p h q).2 = s.verdict p h ∧
      s.stages (s.examineEntry p h q).1 p (s.stagedEntry p h q) := by
  obtain ⟨e, check, status, contribution⟩ | ⟨check, status⟩ := s.checkEntry_eq p h
  · by_cases room : (s.port p).fifo.length < 8
    · have passed : s.verdict p h = .ok := by simp [State.verdict, status, room]
      have place : (s.port p).fifo.length < Config.fifoPlaces := room
      simp only [State.examineEntry, check, if_pos place, State.stagedEntry, passed, if_pos, contribution,
        Option.toList_some]
      exact ⟨trivial, s.stage_stages p _⟩
    · have full : s.verdict p h = .full := by simp [State.verdict, status, room]
      have place : ¬(s.port p).fifo.length < Config.fifoPlaces := room
      simp only [State.examineEntry, check, if_neg place, State.stagedEntry, full]
      exact ⟨trivial, .refl s p⟩
  · have refused : s.verdict p h = s.entryStatus p h := by simp [State.verdict, status]
    simp only [State.examineEntry, check, State.stagedEntry, refused, if_neg status]
    exact ⟨trivial, .refl s p⟩

theorem State.verdict_full (passes : s.entryStatus p h = .ok) (full : 8 - (s.port p).fifo.length = 0) :
    s.verdict p h = .full := if_pos ⟨passes, by omega⟩

theorem State.verdict_ok {n : Nat} (passes : s.entryStatus p h = .ok) (room : 8 - (s.port p).fifo.length = n + 1) :
    s.verdict p h = .ok := (if_neg fun c => c.2 (by omega)).trans passes

theorem State.verdict_refused (fails : s.entryStatus p h ≠ .ok) : s.verdict p h = s.entryStatus p h :=
  if_neg fun c => fails c.1

/-! ## The entries of a POST in turn (R44) -/

theorem postStatuses_refused {st : Status} (n : Nat) (rest : List Status) (refused : st ≠ .ok) :
    postStatuses n (st :: rest) = st :: postStatuses n rest := by
  rw [postStatuses] <;> simp [refused]

theorem State.stagedBy_cons (s : State) (p : PortId) (h : Byte) (q : BitVec 32) (es : List (Byte × BitVec 32))
    (st : Status) (sts : List Status) : s.stagedBy p ((h, q) :: es) (st :: sts) =
      (if st = .ok then (s.contributionOf p h q).toList else []) ++ s.stagedBy p es sts := by
  simp only [State.stagedBy, List.zip_cons_cons, List.filterMap_cons]
  split_ifs
  · cases s.contributionOf p h q <;> rfl
  · rfl

/-- After FULL nothing more is staged (R44). -/
theorem State.stagedBy_full (s : State) (p : PortId) (es : List (Byte × BitVec 32)) :
    s.stagedBy p es (es.map fun _ => .full) = [] := by
  induction es with
  | nil => rfl
  | cons e es ih => rw [List.map_cons, State.stagedBy_cons, if_neg (by decide), ih, List.append_nil]

/-- The statuses of a POST's entries against the state it begins in (R43, R44). -/
def State.statuses (s : State) (p : PortId) (es : List (Byte × BitVec 32)) : List Status :=
  postStatuses (8 - (s.port p).fifo.length) (es.map fun e => s.entryStatus p e.1)

/-- From the first FULL on every entry is FULL (R44). -/
theorem State.statuses_of_full (es : List (Byte × BitVec 32)) (full : s.verdict p h = .full) :
    s.statuses p ((h, q) :: es) = .full :: es.map fun _ => .full := by
  by_cases passes : s.entryStatus p h = .ok
  · rcases room : 8 - (s.port p).fifo.length with _ | n
    · simp only [State.statuses, List.map_cons, passes, room, postStatuses, List.map_map]
      rfl
    · exact absurd ((State.verdict_ok passes room).symm.trans full) (by decide)
  · exact absurd ((State.verdict_refused passes).symm.trans full) (s.entryStatus_ne_full p h)

/-- Before a FULL, the later entries' statuses are those against the state the entry leaves. -/
theorem State.statuses_of_not_full (es : List (Byte × BitVec 32)) (next : s.verdict p h ≠ .full)
    (a : s.stages t p (s.stagedEntry p h q)) :
    s.statuses p ((h, q) :: es) = s.verdict p h :: t.statuses p es := by
  have later : t.statuses p es = postStatuses (8 - (s.port p).fifo.length - (s.stagedEntry p h q).length)
      (es.map fun e => s.entryStatus p e.1) := by
    simp only [State.statuses, a.entryStatus, a.fifo, List.length_append, Nat.sub_sub]
  rw [later, State.statuses, List.map_cons]
  by_cases passes : s.entryStatus p h = .ok
  · rcases room : 8 - (s.port p).fifo.length with _ | n
    · exact absurd (State.verdict_full passes room) next
    · have ok := State.verdict_ok passes room
      have one : (s.stagedEntry p h q).length = 1 := State.length_stagedEntry ok
      rw [passes, ok, one, postStatuses]
      rfl
  · have refused := State.verdict_refused passes
    rw [postStatuses_refused _ _ passes, refused, State.stagedEntry, refused, if_neg passes]
    rfl

theorem State.postLoop_full (full : (s.examineEntry p h q).2 = .full) : s.postLoop p ((h, q) :: es) =
    ((s.examineEntry p h q).1, .full :: es.map fun _ => .full) := by
  simp only [State.postLoop, full, if_true]

theorem State.postLoop_next (next : (s.examineEntry p h q).2 ≠ .full) : s.postLoop p ((h, q) :: es) =
    (((s.examineEntry p h q).1.postLoop p es).1,
      (s.examineEntry p h q).2 :: ((s.examineEntry p h q).1.postLoop p es).2) := by
  simp only [State.postLoop, if_neg next]

/-- The whole POST stages what its statuses say, as if every check were made at its start (R42 to R45). -/
theorem State.postLoop_stages (s : State) (p : PortId) (es : List (Byte × BitVec 32)) :
    (s.postLoop p es).2 = s.statuses p es ∧
      s.stages (s.postLoop p es).1 p (s.stagedBy p es (s.statuses p es)) := by
  induction es generalizing s with
  | nil => exact ⟨rfl, .refl s p⟩
  | cons e es ih =>
    obtain ⟨h, q⟩ := e
    obtain ⟨status, staged⟩ := s.examineEntry_stages p h q
    by_cases full : s.verdict p h = .full
    · rw [State.postLoop_full (status.trans full), State.statuses_of_full es full, State.stagedBy_cons,
        if_neg (by decide), State.stagedBy_full]
      rw [State.stagedEntry, full, if_neg (by decide)] at staged
      exact ⟨rfl, staged⟩
    · obtain ⟨later, stagedLater⟩ := ih (s.examineEntry p h q).1
      rw [State.postLoop_next (status ▸ full), State.statuses_of_not_full es full staged, State.stagedBy_cons,
        status, later]
      rw [staged.stagedBy] at stagedLater
      exact ⟨rfl, staged.trans stagedLater⟩

/-! ## The obligations -/

/-- The answer to a POST in the words of the statement (R45, R169). -/
theorem State.postAnswer_eq (s : State) (p : PortId) (sts : List Status) : s.postAnswer p sts =
    ⟨if sts.all (· == .ok) then .ok else .partly,
      byteOf (sts.count .ok) :: sts.map Status.code ++ [byteOf (8 - (s.port p).fifo.length)]⟩ := rfl

/-- Taking the frame leaves what a POST is examined against. -/
theorem State.entryStatus_taken (s : State) (p : PortId) (tag : Byte) (n : Nat) (h : Byte) :
    (s.taken p tag n).entryStatus p h = s.entryStatus p h := by
  simp only [State.entryStatus, State.viewEntry_taken]
  rfl

theorem State.statuses_taken (s : State) (p : PortId) (tag : Byte) (n : Nat) (es : List (Byte × BitVec 32)) :
    (s.taken p tag n).statuses p es = s.statuses p es := by
  simp only [State.statuses, State.entryStatus_taken, State.fifo_taken]

theorem State.stagedBy_taken (s : State) (p : PortId) (tag : Byte) (n : Nat) (es : List (Byte × BitVec 32))
    (sts : List Status) : (s.taken p tag n).stagedBy p es sts = s.stagedBy p es sts := by
  simp only [State.stagedBy, State.contributionOf, State.viewEntry_taken]

/-- A POST carried out whole: its entries are read back and examined in turn, and the answer follows (R42, R45). -/
theorem actPost_stages (s : State) (p : PortId) (tag : Byte) (fits : es.length ≤ 8) :
    ∃ t, actPost s p tag (postPayload es) = (t, some (t.postAnswer p (s.statuses p es))) ∧
      s.stages t p (s.stagedBy p es (s.statuses p es)) := by
  obtain ⟨statuses, stages⟩ := s.postLoop_stages p es
  refine ⟨_, ?_, stages⟩
  simp only [actPost, postEntries_postPayload fits, statuses]

/-- Settles O28: the entries are read back from the payload and staged in turn on the state with the frame taken. -/
theorem postStagesItsEntries : Obligations.PostStagesItsEntries := by
  intro s p tag es hs some_entry fits
  obtain ⟨t, acts, stages⟩ := actPost_stages (s.taken p tag (frameBits (postPayload es))) p tag fits
  rw [State.statuses_taken, State.stagedBy_taken] at stages
  rw [State.statuses_taken, State.postAnswer_eq] at acts
  refine ⟨_, exec_answers (r := .post) hs (accepts_postPayload some_entry fits) acts, ⟨?_, ?_⟩, ?_, stages.tally, ?_,
    ?_, ?_, fun r other => ?_, stages.groups, stages.store, stages.rest⟩
  · obtain ⟨-, number, -⟩ := stages.engine
    rw [State.slot_respond_self, State.fifo_respond, number, State.number_taken]
    rfl
  · rw [State.reason_respond, stages.reason, State.reason_taken_self]
  · rw [State.fifo_respond, stages.fifo, State.fifo_taken]
    rfl
  · have taken : (s.port p).sameEngine ((s.taken p tag (frameBits (postPayload es))).port p) := by
      simp [Port.sameEngine]
    have answered : ∀ a, (t.port p).sameEngine ((t.respond p tag a).port p) := fun a => by simp [Port.sameEngine]
    exact (taken.trans stages.engine).trans (answered _)
  · rw [State.view_respond, stages.view, State.view_taken]
  · rw [State.events_respond, stages.events, State.events_taken]
  · rw [State.port_respond_ne _ _ _ _ _ other, stages.ports r other, State.port_taken_ne _ _ _ _ _ other]

/-- The frame of a POST in parts is taken: its entries wait, and no response is formed yet. -/
theorem actPostTaken_eq (s : State) (p : PortId) (tag : Byte) (fits : es.length ≤ 8) :
    actPostTaken s p tag (postPayload es) = (s.setPort p { s.port p with posting := some ⟨tag, es, []⟩ }, none) := by
  rw [actPostTaken, postEntries_postPayload fits]

/-- The POST served with its frame alone. -/
theorem exec_postTaken (hs : s.serves p) (some_entry : 1 ≤ es.length) (fits : es.length ≤ 8) (tag : Byte) :
    exec (.post p tag (postPayload es) .taken) s =
      .next ((s.taken p tag (frameBits (postPayload es))).setPort p
        { (s.taken p tag (frameBits (postPayload es))).port p with posting := some ⟨tag, es, []⟩ }) := by
  have accepted := accepts_postPayload some_entry fits
  show Host.Outcome.next (s.request p tag .post (postPayload es) actPostTaken) = _
  rw [s.request_served p tag .post _ _ hs (accepts_length accepted) accepted, actPostTaken_eq _ p tag fits]

/-! ## The progress of a POST in parts -/

/-- From `s` to `t` the POST in progress at port `p` has moved on: its waiting entries and its slot may have changed,
nothing else has (R45, R165). -/
structure State.progresses (s t : State) (p : PortId) : Prop where
  session : (t.port p).session = (s.port p).session
  number : (t.port p).number = (s.port p).number
  sessionEnd : (t.port p).sessionEnd = (s.port p).sessionEnd
  link : (t.port p).link = (s.port p).link
  prst : (t.port p).prst = (s.port p).prst
  reason : (t.port p).reason = (s.port p).reason
  tables : (s.port p).sameTables (t.port p)
  ports : s.samePortsBut t p
  behind : s.sameBehindPorts t

/-- The POST waits for its further entries, or ends, its slot not yet answered. -/
theorem State.setPosting_progresses (s : State) (p : PortId) (o : Option PostWork) :
    s.progresses (s.setPort p { s.port p with posting := o }) p where
  session := by simp
  number := by simp
  sessionEnd := by simp
  link := by simp
  prst := by simp
  reason := by simp
  tables := by simp [Port.sameTables]
  ports r other := by simp [other]
  behind := ⟨fun _ => rfl, fun _ => rfl, ⟨fun _ => rfl, rfl⟩, rfl, rfl, rfl⟩

theorem State.progresses.respond (a : s.progresses t p) (tag : Byte) (x : Answer) :
    s.progresses (t.respond p tag x) p where
  session := by simp [a.session]
  number := by simp [a.number]
  sessionEnd := by simp [a.sessionEnd]
  link := by simp [a.link]
  prst := by simp [a.prst]
  reason := by simp [a.reason]
  tables := by
    obtain ⟨view, fifo, events⟩ := a.tables
    simp [Port.sameTables, view, fifo, events]
  ports r other := by rw [State.port_respond_ne _ _ _ _ _ other, a.ports r other]
  behind := a.behind

theorem State.postProgress_waits (s : State) (p : PortId) (w : PostWork) {left : List (Byte × BitVec 32)}
    (sts : List Status) (more : left ≠ []) :
    s.postProgress p w left sts = s.setPort p { s.port p with posting := some ⟨w.tag, left, sts⟩ } := by
  cases left with
  | nil => exact absurd rfl more
  | cons e left => rfl

/-- A POST whose entries are all examined is answered, if its slot still waits for that (R45, R165). -/
theorem State.postProgress_ends (s : State) (p : PortId) (w : PostWork) (sts : List Status) :
    s.progresses (s.postProgress p w [] sts) p ∧ ((s.postProgress p w [] sts).port p).posting = none ∧
      ((s.postProgress p w [] sts).port p).slot = if (s.port p).slot = .working (.request w.tag) then
        .ready ⟨w.tag, (s.postAnswer p sts).status, (s.port p).number, (s.postAnswer p sts).payload⟩
      else (s.port p).slot := by
  have ended := s.setPosting_progresses p none
  by_cases waits : (s.port p).slot = .working (.request w.tag)
  · have answered : s.postProgress p w [] sts =
        (s.setPort p { s.port p with posting := none }).respond p w.tag (s.postAnswer p sts) := by
      simp [State.postProgress, waits, State.postAnswer]
    rw [answered, if_pos waits]
    exact ⟨ended.respond w.tag _, by simp, by simp⟩
  · have silent : s.postProgress p w [] sts = s.setPort p { s.port p with posting := none } := by
      simp [State.postProgress, waits]
    rw [silent, if_neg waits]
    exact ⟨ended, by simp, by simp⟩

theorem State.postProgress_progresses (s : State) (p : PortId) (w : PostWork) (left : List (Byte × BitVec 32))
    (sts : List Status) : s.progresses (s.postProgress p w left sts) p := by
  by_cases more : left = []
  · subst more
    exact (s.postProgress_ends p w sts).1
  · rw [s.postProgress_waits p w sts more]
    exact s.setPosting_progresses p _

/-- The next entry is examined, FULL ending the examination, and the POST moves on (R43, R44). -/
theorem State.postNext_eq {w : PostWork} {rest : List (Byte × BitVec 32)} (posting : (s.port p).posting = some w)
    (waiting : w.rest = (h, q) :: rest) : s.postNext p =
      (s.examineEntry p h q).1.postProgress p w (if s.verdict p h = .full then [] else rest)
        (w.sts ++ s.verdict p h :: if s.verdict p h = .full then rest.map fun _ => .full else []) := by
  obtain ⟨status, -⟩ := s.examineEntry_stages p h q
  simp only [State.postNext, posting, waiting, status]
  split <;> simp [*]

theorem exec_postEntry (awake : s.resetPin = false) (tag : Byte) (pl : List Byte) :
    exec (.post p tag pl .entry) s = .next (s.postNext p) := by
  show Host.Outcome.next (s.unlessReset _) = _
  rw [State.unlessReset, awake]
  rfl

theorem State.postNext_idle (idle : (s.port p).posting = none) : s.postNext p = s := by
  simp only [State.postNext, idle]

/-- Settles O29: the frame's taking writes the waiting entries; an entry's examination stages it and moves the
POST on. -/
theorem postExaminesEntryByEntry : Obligations.PostExaminesEntryByEntry := by
  intro s p
  refine ⟨fun tag es hs some_entry fits => ⟨_, exec_postTaken hs some_entry fits tag, ?_⟩, fun tag pl awake idle => ?_,
    fun w h q rest tag pl awake posting waiting => ?_⟩
  · refine ⟨by simp, by simp, by simp, by simp, by simp, by simp, by simp, by simp, ?_, fun r other => by simp [other],
      fun _ => rfl, fun _ => rfl, ⟨fun _ => rfl, rfl⟩, rfl, rfl, rfl⟩
    simp [Port.sameTables]
  · rw [exec_postEntry awake, State.postNext_idle idle]
  · intro room st sts staged ended
    obtain ⟨-, stages⟩ := s.examineEntry_stages p h q
    have next : s.postNext p = (s.examineEntry p h q).1.postProgress p w (if st = .full then [] else rest) sts :=
      State.postNext_eq posting waiting
    generalize (s.examineEntry p h q).1 = t at stages next
    have progress := t.postProgress_progresses p w (if st = .full then [] else rest) sts
    obtain ⟨view, fifo, events⟩ := progress.tables
    obtain ⟨tallies, groups, store, rest'⟩ := progress.behind
    obtain ⟨session, number, sessionEnd, posting', link, prst⟩ := stages.engine
    refine ⟨_, exec_postEntry awake tag pl, ?_⟩
    rw [next]
    refine ⟨fifo.trans stages.fifo, fun u => (tallies u).trans (stages.tally u), fun goes => ?_, fun ends => ?_,
      progress.session.trans session, progress.number.trans number, progress.sessionEnd.trans sessionEnd,
      progress.link.trans link, progress.prst.trans prst, progress.reason.trans stages.reason, view.trans stages.view,
      events.trans stages.events, fun r other => (progress.ports r other).trans (stages.ports r other),
      fun g => (groups g).trans (stages.groups g), stages.store.trans store, stages.rest.trans rest'⟩
    · have more : (if st = .full then [] else rest) = rest := if_neg fun full => goes (.inr full)
      have waits := t.postProgress_waits p w sts (left := rest) fun last => goes (.inl last)
      rw [more, waits]
      exact ⟨by simp, by simpa using stages.slot⟩
    · have none_left : (if st = .full then [] else rest) = [] := by
        rcases ends with rfl | full
        · exact ite_self _
        · exact if_pos full
      obtain ⟨-, idle, slot⟩ := t.postProgress_ends p w sts
      rw [none_left] at fifo ⊢
      refine ⟨idle, fun awaited => ?_, fun cut => ?_⟩
      · rw [slot, stages.slot, if_pos awaited, State.postAnswer_eq, fifo, number]
      · rw [slot, stages.slot, cut, if_neg (by nofun)]

end Sys2Proof.Machine

/-! O31 to O35: the apply. Steps 1 to 4 write one tally record and post some events; step 5 takes the entry off its
FIFO. Each kind's rule (O32 to O35) says which record and which events those are. -/

namespace Sys2Proof.Machine

variable {s w : State} {q r : PortId} {u : TallyId} {e : Staged} {rest : List Staged} {y : Tally} {l : List Posting}

/-! ## Evaluation of a record just written -/

@[simp] theorem State.setTally_setTally (s : State) (u : TallyId) (x y : Tally) :
    (s.setTally u x).setTally u y = s.setTally u y := by simp [State.setTally]

theorem State.watchers_setTally (rights : y.rights = (s.tally u).rights) :
    (s.setTally u y).watchers u = s.watchers u := by
  have same : ∀ p, (s.setTally u y).rightsOf p u = s.rightsOf p u := fun p => by simp [State.rightsOf, rights]
  simp only [State.watchers, same]
  rfl

/-- The notices of some limit moves: every watcher is sent each move (R128). -/
def State.moveNotices (s : State) (u : TallyId) (moves : List (EventKind × Side)) : List Posting :=
  moves.flatMap fun m => (s.watchers u).map fun p => (p, m.1, .tally u, .side m.2)

theorem State.evaluateWithEvents_setTally (rights : y.rights = (s.tally u).rights) :
    (s.setTally u y).evaluateWithEvents u = (s.setTally u y.evaluate).postList (s.moveNotices u y.limitMoves) := by
  rw [State.evaluateWithEvents_eq, State.watchers_setTally rights, State.tally_setTally_self, State.setTally_setTally]
  rfl

@[simp] theorem Tally.noteApplied_rights (x : Tally) (p : PortId) : (x.noteApplied p).rights = x.rights := rfl

@[simp] theorem Tally.noteApplied_stagedCount (x : Tally) (p : PortId) :
    (x.noteApplied p).stagedCount = x.stagedCount := rfl

/-! ## Steps 1 to 4: the record written and the events posted -/

section
variable (touched : s.touch e.tally = w)
include touched

/-- A FROZEN tally drops the contribution (R56). -/
theorem State.applyContribution_dropped (frozen : (w.tally e.tally).state = .frozen) :
    s.applyContribution e = (w.setTally e.tally (w.tally e.tally).noteDropped).postList
      [(e.port, .contribRefused, .tally e.tally, .refused .frozen)] := by
  rw [State.applyContribution, touched, if_pos frozen]
  rfl

variable (live : (w.tally e.tally).state ≠ .frozen)
include live

/-- A successful apply is counted, and its limits are evaluated with events (R62, R126). -/
theorem State.applyContribution_applied (takes : (w.tally e.tally).applyProduct e.product = (y, .applied)) :
    s.applyContribution e = (w.setTally e.tally (y.noteApplied e.port).evaluate).postList
      (w.moveNotices e.tally (y.noteApplied e.port).limitMoves) := by
  have rights : (y.noteApplied e.port).rights = (w.tally e.tally).rights := by
    simpa [takes] using ((w.tally e.tally).applyProduct_sameMake e.product).rights
  simp only [State.applyContribution, touched, if_neg live, takes]
  exact State.evaluateWithEvents_setTally rights

/-- A rejected contribution is reported to its poster (R57, R63). -/
theorem State.applyContribution_rejected (takes : (w.tally e.tally).applyProduct e.product = (y, .rejected)) :
    s.applyContribution e =
      (w.setTally e.tally y).postList [(e.port, .contribRefused, .tally e.tally, .refused .negative)] := by
  simp only [State.applyContribution, touched, if_neg live, takes]
  rfl

/-- A refused overflow is reported to its poster, then TALLY_FROZEN to its recipients (R60, R63). -/
theorem State.applyContribution_overflowed (takes : (w.tally e.tally).applyProduct e.product = (y, .overflowed)) :
    s.applyContribution e = (w.setTally e.tally y).postList
      ([(e.port, .contribRefused, .tally e.tally, .refused .overflow)] ++
        (w.frozenRecipients e.tally).map fun p => (p, .tallyFrozen, .tally e.tally, .none)) := by
  simp only [State.applyContribution, touched, if_neg live, takes, State.postTo_eq, State.postList_append]
  rfl

end

theorem Tally.applyProduct_stagedCount (x : Tally) (n : Int) : (x.applyProduct n).1.stagedCount = x.stagedCount := by
  unfold Tally.applyProduct
  split
  · unfold Tally.applySumU; split
    · rfl
    · split <;> rfl
  · unfold Tally.applySumS; split
    · rfl
    · split <;> rfl
  · unfold Tally.applyPeak; split <;> rfl

theorem State.stagedCount_touch (s : State) (u : TallyId) :
    ((s.touch u).tally u).stagedCount = (s.tally u).stagedCount := by
  unfold State.touch
  split <;> simp

/-- Whatever the outcome, one record is written, its staged count as it was, and some events are posted (R54). -/
theorem State.applyContribution_written (s : State) (e : Staged) : ∃ y l,
    s.applyContribution e = ((s.touch e.tally).setTally e.tally y).postList l ∧
      y.stagedCount = (s.tally e.tally).stagedCount := by
  have kept := s.stagedCount_touch e.tally
  by_cases frozen : ((s.touch e.tally).tally e.tally).state = .frozen
  · exact ⟨_, _, State.applyContribution_dropped rfl frozen, kept⟩
  · have product := ((s.touch e.tally).tally e.tally).applyProduct_stagedCount e.product
    rcases takes : ((s.touch e.tally).tally e.tally).applyProduct e.product with ⟨y, _ | _ | _⟩
    all_goals rw [takes, kept] at product
    · exact ⟨_, _, State.applyContribution_applied rfl frozen takes, by simpa using product⟩
    · exact ⟨_, _, State.applyContribution_rejected rfl frozen takes, product⟩
    · exact ⟨_, _, State.applyContribution_overflowed rfl frozen takes, product⟩

/-! ## Step 5: the entry leaves its FIFO -/

theorem State.tally_leaveFifo (s : State) (q : PortId) (e : Staged) (rest : List Staged) (u : TallyId) :
    (s.leaveFifo q e rest).tally u =
      if u = e.tally then { s.tally e.tally with stagedCount := (s.tally e.tally).stagedCount - 1 } else s.tally u := by
  simp [State.leaveFifo, State.tally_setTally]

/-- The FIFO alone moves, and of its port alone. -/
theorem State.port_leaveFifo (s : State) (q : PortId) (e : Staged) (rest : List Staged) (r : PortId) :
    let x := s.port r
    let z := (s.leaveFifo q e rest).port r
    x.sameEngine z ∧ z.slot = x.slot ∧ z.reason = x.reason ∧ z.so = x.so ∧ z.view = x.view ∧
      z.fifo = (if r = q then rest else x.fifo) ∧ z.events = x.events := by
  have here : (s.leaveFifo q e rest).port r =
      if r = q then ({ s.port q with fifo := rest } : Port).driveAlert else s.port r := by
    simp [State.leaveFifo, State.port_setPort]
  dsimp only
  rw [here]
  split
  · simp [*, Port.sameEngine]
  · simp [Port.sameEngine]

theorem State.behindPorts_leaveFifo (s : State) (q : PortId) (e : Staged) (rest : List Staged) :
    s.sameGroups (s.leaveFifo q e rest) ∧ s.sameStore (s.leaveFifo q e rest) ∧ s.sameRest (s.leaveFifo q e rest) :=
  ⟨fun _ => rfl, ⟨fun _ => rfl, rfl⟩, rfl, rfl, rfl⟩

/-! ## A DRAIN that waits (R64) -/

theorem State.drainDone_due {tag : Byte} (empty : (s.port q).fifo = [])
    (waits : (s.port q).slot = .working (.drain tag)) : s.drainDone q = s.respond q tag ⟨.ok, []⟩ := by
  simp only [State.drainDone, empty, waits]

theorem State.drainDone_not_due (busy : (s.port q).fifo ≠ [] ∨ ∀ tag, (s.port q).slot ≠ .working (.drain tag)) :
    s.drainDone q = s := by
  unfold State.drainDone
  split
  · rename_i tag waits empty
    exact absurd waits (busy.resolve_left (not_not_intro empty) tag)
  · rfl

/-- A DRAIN is answered, or nothing happens. -/
theorem State.drainDone_cases (s : State) (q : PortId) :
    s.drainDone q = s ∨ ∃ tag, s.drainDone q = s.respond q tag ⟨.ok, []⟩ := by
  unfold State.drainDone
  split
  · exact .inr ⟨_, rfl⟩
  · exact .inl rfl

theorem State.sameBehindPorts_drainDone (s : State) (q : PortId) : s.sameBehindPorts (s.drainDone q) := by
  rcases s.drainDone_cases q with h | ⟨tag, h⟩ <;> rw [h] <;>
    exact ⟨fun _ => rfl, fun _ => rfl, ⟨fun _ => rfl, rfl⟩, rfl, rfl, rfl⟩

/-- An answered DRAIN moves its own port's slot alone. -/
theorem State.port_drainDone (s : State) (q r : PortId) : (s.port r).sameEngine ((s.drainDone q).port r) ∧
    (s.port r).sameTables ((s.drainDone q).port r) ∧ ((s.drainDone q).port r).reason = (s.port r).reason ∧
    ((s.drainDone q).port r).so = (s.port r).so ∧
    (r ≠ q → ((s.drainDone q).port r).slot = (s.port r).slot) := by
  rcases s.drainDone_cases q with h | ⟨tag, h⟩ <;> rw [h]
  · simp [Port.sameEngine, Port.sameTables]
  · refine ⟨by simp [Port.sameEngine], by simp [Port.sameTables], by simp, by simp, fun other => by simp [other]⟩

/-! ## The whole apply -/

/-- The arbiter's pointer moves (R52). -/
def State.pointAt (s : State) (q : PortId) : State := { s with pointer := q }

@[simp] theorem State.tally_pointAt (s : State) (q : PortId) (u : TallyId) : (s.pointAt q).tally u = s.tally u := rfl
@[simp] theorem State.port_pointAt (s : State) (q r : PortId) : (s.pointAt q).port r = s.port r := rfl
@[simp] theorem State.group_pointAt (s : State) (q : PortId) (g : GroupId) : (s.pointAt q).group g = s.group g := rfl
@[simp] theorem State.ring_pointAt (s : State) (q : PortId) (g : GroupId) : (s.pointAt q).ring g = s.ring g := rfl
@[simp] theorem State.freeCells_pointAt (s : State) (q : PortId) : (s.pointAt q).freeCells = s.freeCells := rfl
@[simp] theorem State.pointer_pointAt (s : State) (q : PortId) : (s.pointAt q).pointer = q := rfl
@[simp] theorem State.resetPin_pointAt (s : State) (q : PortId) : (s.pointAt q).resetPin = s.resetPin := rfl
@[simp] theorem State.pending_pointAt (s : State) (q : PortId) : (s.pointAt q).pending = s.pending := rfl

theorem State.serve_eq (s : State) (q : PortId) (e : Staged) (rest : List Staged) :
    s.serve q e rest = (((s.applyContribution e).leaveFifo q e rest).drainDone q).pointAt (q + 1) := by
  simp only [State.serve, State.pointAt]

section
variable (touched : s.touch e.tally = w) (writes : s.applyContribution e = (w.setTally e.tally y).postList l)
include touched writes

/-- The entry's tally holds the record the apply wrote, the entry no longer staged; no other tally changes (R54). -/
theorem State.tally_serve (q : PortId) (rest : List Staged) (u : TallyId) : (s.serve q e rest).tally u =
    if u = e.tally then { y with stagedCount := y.stagedCount - 1 } else s.tally u := by
  subst touched
  obtain ⟨drain, -⟩ := ((s.applyContribution e).leaveFifo q e rest).sameBehindPorts_drainDone q
  rw [State.serve_eq, State.tally_pointAt, drain, State.tally_leaveFifo, writes]
  split <;> simp [*]

/-- Before a DRAIN is answered, the apply has posted its events and its entry has left the FIFO; all else of a port
stands. -/
theorem State.port_unstaged (q : PortId) (rest : List Staged) (r : PortId) :
    let x := s.port r
    let z := ((s.applyContribution e).leaveFifo q e rest).port r
    x.sameEngine z ∧ z.slot = x.slot ∧ z.reason = x.reason ∧ z.so = x.so ∧ z.view = x.view ∧
      z.fifo = (if r = q then rest else x.fifo) ∧
      z.events = if x.session = .online then x.events.postAll (postedTo l r) else x.events := by
  subst touched
  have posted := ((s.touch e.tally).setTally e.tally y).sameButEvents_postList r l
  have events := ((s.touch e.tally).setTally e.tally y).events_postList r l
  rw [State.port_setTally, State.port_touch, ← writes] at posted events
  obtain ⟨engine, slot, reason, so, view, fifo⟩ := posted
  obtain ⟨engine', slot', reason', so', view', fifo', events'⟩ := (s.applyContribution e).port_leaveFifo q e rest r
  exact ⟨engine.trans engine', slot'.trans slot, reason'.trans reason, so'.trans so, view'.trans view,
    by rw [fifo', fifo], events'.trans events⟩

/-- After the whole apply all else of a port but the served FIFO, a waiting DRAIN's slot and the event blocks stands. -/
theorem State.port_serve (q : PortId) (rest : List Staged) (r : PortId) :
    let x := s.port r
    let z := (s.serve q e rest).port r
    x.sameEngine z ∧ z.reason = x.reason ∧ z.so = x.so ∧ z.view = x.view ∧
      z.fifo = (if r = q then rest else x.fifo) ∧ (r ≠ q → z.slot = x.slot) ∧
      z.events = if x.session = .online then x.events.postAll (postedTo l r) else x.events := by
  obtain ⟨engine, slot, reason, so, view, fifo, events⟩ := State.port_unstaged touched writes q rest r
  obtain ⟨engine', ⟨view', fifo', events'⟩, reason', so', slot'⟩ :=
    ((s.applyContribution e).leaveFifo q e rest).port_drainDone q r
  dsimp only
  rw [State.serve_eq, State.port_pointAt]
  exact ⟨engine.trans engine', reason'.trans reason, so'.trans so, view'.trans view, fifo'.trans fifo,
    fun other => (slot' other).trans slot, events'.trans events⟩

/-- A DRAIN that waits on the FIFO just emptied becomes READY (R64). -/
theorem State.slot_serve_due {tag : Byte} (q : PortId) (waits : (s.port q).slot = .working (.drain tag)) :
    ((s.serve q e []).port q).slot = .ready ⟨tag, .ok, (s.port q).number, []⟩ := by
  obtain ⟨⟨-, number, -⟩, slot, -, -, -, fifo, -⟩ := State.port_unstaged touched writes q [] q
  rw [State.serve_eq, State.port_pointAt, State.drainDone_due (fifo.trans (if_pos rfl)) (slot.trans waits),
    State.slot_respond_self, number]

/-- Where no DRAIN is due, the served port's slot stands too. -/
theorem State.slot_serve_not_due (q : PortId)
    (busy : rest ≠ [] ∨ ∀ tag, (s.port q).slot ≠ .working (.drain tag)) :
    ((s.serve q e rest).port q).slot = (s.port q).slot := by
  obtain ⟨-, slot, -, -, -, fifo, -⟩ := State.port_unstaged touched writes q rest q
  rw [if_pos rfl] at fifo
  rw [State.serve_eq, State.port_pointAt, State.drainDone_not_due (by rwa [fifo, slot]), slot]

/-- Groups, free cells, the RESET# level and the queue of commands stand, and the rings are those of the touch. -/
theorem State.behindPorts_serve (q : PortId) (rest : List Staged) :
    s.sameGroups (s.serve q e rest) ∧ (s.serve q e rest).freeCells = s.freeCells ∧
      (∀ g, (s.serve q e rest).ring g = (s.touch e.tally).ring g) ∧
      (s.serve q e rest).resetPin = s.resetPin ∧ (s.serve q e rest).pending = s.pending := by
  subst touched
  obtain ⟨-, groups, ⟨rings, cells⟩, -, pin, queue⟩ :=
    ((s.applyContribution e).leaveFifo q e rest).sameBehindPorts_drainDone q
  obtain ⟨groups', ⟨rings', cells'⟩, -, pin', queue'⟩ := (s.applyContribution e).behindPorts_leaveFifo q e rest
  rw [State.serve_eq]
  refine ⟨fun g => ?_, ?_, fun g => ?_, ?_, ?_⟩
  · rw [State.group_pointAt, groups, groups', writes]; simp
  · rw [State.freeCells_pointAt, cells, cells', writes]; simp
  · rw [State.ring_pointAt, rings, rings', writes]; simp
  · rw [State.resetPin_pointAt, pin, pin', writes]; simp
  · rw [State.pending_pointAt, queue, queue', writes]; simp

theorem State.eventsAre_serve (q : PortId) (rest : List Staged) :
    s.eventsAre (s.serve q e rest) (postedTo l) := by
  intro r
  obtain ⟨-, -, -, -, -, -, events⟩ := State.port_serve touched writes q rest r
  exact events

end

theorem exec_apply_of_empty (empty : ∀ q, (s.port q).fifo = []) : exec .apply s = .next s := by
  have idle : s.applyNext = s := by simp [State.applyNext, State.granted, empty]
  show Host.Outcome.next (s.unlessReset _) = _
  simp [State.unlessReset, idle]

/-- Settles O31: one apply writes the entry's tally, takes the head off its FIFO and answers a DRAIN that is due. -/
theorem applyServesInTurn : Obligations.ApplyServesInTurn := by
  intro s awake
  refine ⟨exec_apply_of_empty, fun q e rest turn => ⟨_, exec_apply_of_turnOf awake turn, rfl, ?_⟩⟩
  obtain ⟨y, l, writes, staged⟩ := s.applyContribution_written e
  have tally := State.tally_serve rfl writes q rest
  have port := State.port_serve rfl writes q rest
  obtain ⟨groups, cells, rings, pin, queue⟩ := State.behindPorts_serve rfl writes q rest
  refine ⟨?_, ?_, fun tag last waits => ?_, State.slot_serve_not_due rfl writes q, fun r => ?_, fun r other => ?_,
    fun u other => ?_, groups, cells, fun current g => ?_, pin, queue⟩
  · obtain ⟨-, -, -, -, fifo, -⟩ := port q
    simpa using fifo
  · rw [tally, if_pos rfl, staged]
  · subst last
    exact State.slot_serve_due rfl writes q waits
  · obtain ⟨engine, reason, so, view, -⟩ := port r
    exact ⟨engine, reason, so, view⟩
  · obtain ⟨-, -, -, -, fifo, slot, -⟩ := port r
    exact ⟨by simpa [other] using fifo, slot other⟩
  · rw [tally, if_neg other]
  · rw [rings, State.touch_of_not_owed _ _ current]

end Sys2Proof.Machine

/-! O32 to O35: the outcomes of an apply at a tally that is not owed, and the kinds' rules. -/

namespace Sys2Proof.Machine

variable {s : State} {q : PortId} {e : Staged} {rest : List Staged} {x y : Tally} {l : List Posting} {v n : Int}

/-! ## The four outcomes -/

/-- One event to one port. -/
theorem postedTo_one (p : PortId) (k : EventKind) (u : Subject) (d : Detail) (r : PortId) :
    postedTo [(p, k, u, d)] r = if r = p then [(k, u, d)] else [] := by
  simpa using postedTo_map r [p] (List.nodup_singleton p) (k, u, d)

theorem State.postedTo_moveNotices (s : State) (u : TallyId) (moves : List (EventKind × Side)) (r : PortId) :
    postedTo (s.moveNotices u moves) r = s.limitEvents u moves r := postedTo_moves s u r moves

/-- TALLY_FROZEN goes once to the administrator and to each watcher (R60). -/
theorem State.postedTo_frozenRecipients (s : State) (u : TallyId) (ev : EventKind × Subject × Detail) (r : PortId) :
    postedTo ((s.frozenRecipients u).map fun p => (p, ev)) r =
      if (s.tally u).admin = some r ∨ (s.bound r u = true ∧ (s.rightsOf r u).watch = true) then [ev] else [] := by
  have once : (s.frozenRecipients u).Nodup := (List.nodup_finRange 4).filter _
  rw [postedTo_map r _ once]
  simp [State.frozenRecipients, State.watchers]

/-- What APPLY makes of the granted entry: the tally's new record, and the events each port is sent. -/
def State.appliesTo (s : State) (u : TallyId) (y : Tally)
    (sent : PortId → List (EventKind × Subject × Detail)) : Prop :=
  ∃ t, exec .apply s = .next t ∧ t.tally u = y ∧ s.eventsAre t sent

section
variable (awake : s.resetPin = false) (turn : s.turnOf q e rest)
include awake turn

/-- An apply whose first four steps write `y` and post `l`. -/
theorem State.appliesTo_written {sent : PortId → List (EventKind × Subject × Detail)}
    (touched : s.touch e.tally = s) (writes : s.applyContribution e = (s.setTally e.tally y).postList l)
    (staged : y.stagedCount = (s.tally e.tally).stagedCount) (posts : ∀ r, postedTo l r = sent r) :
    s.appliesTo e.tally { y with stagedCount := (s.tally e.tally).stagedCount - 1 } sent := by
  have tally := State.tally_serve touched writes q rest e.tally
  rw [if_pos rfl, staged] at tally
  have events := State.eventsAre_serve touched writes q rest
  rw [funext posts] at events
  exact ⟨_, exec_apply_of_turnOf awake turn, tally, events⟩

variable (current : s.owed e.tally = false)
include current

theorem State.appliesTo_dropped (frozen : (s.tally e.tally).state = .frozen) : s.appliesTo e.tally
    { (s.tally e.tally).noteDropped with stagedCount := (s.tally e.tally).stagedCount - 1 }
    fun r => if r = e.port then [(.contribRefused, .tally e.tally, .refused .frozen)] else [] :=
  have touched := s.touch_of_not_owed _ current
  State.appliesTo_written awake turn touched (State.applyContribution_dropped touched frozen) rfl (postedTo_one _ _ _ _)

variable (live : (s.tally e.tally).state = .live)
include live

theorem State.appliesTo_applied (takes : (s.tally e.tally).applyProduct e.product = (y, .applied)) :
    s.appliesTo e.tally
      { (y.noteApplied e.port).evaluate with stagedCount := (s.tally e.tally).stagedCount - 1 }
      (s.limitEvents e.tally (y.noteApplied e.port).limitMoves) := by
  have touched := s.touch_of_not_owed _ current
  have staged := (s.tally e.tally).applyProduct_stagedCount e.product
  rw [takes] at staged
  exact State.appliesTo_written awake turn touched
    (State.applyContribution_applied touched (by simp [live]) takes) (by simpa using staged)
    (s.postedTo_moveNotices e.tally _)

theorem State.appliesTo_rejected (takes : (s.tally e.tally).applyProduct e.product = (y, .rejected)) :
    s.appliesTo e.tally { y with stagedCount := (s.tally e.tally).stagedCount - 1 }
      fun r => if r = e.port then [(.contribRefused, .tally e.tally, .refused .negative)] else [] := by
  have touched := s.touch_of_not_owed _ current
  have staged := (s.tally e.tally).applyProduct_stagedCount e.product
  rw [takes] at staged
  exact State.appliesTo_written awake turn touched
    (State.applyContribution_rejected touched (by simp [live]) takes) staged (postedTo_one _ _ _ _)

theorem State.appliesTo_overflowed (takes : (s.tally e.tally).applyProduct e.product = (y, .overflowed)) :
    s.appliesTo e.tally { y with stagedCount := (s.tally e.tally).stagedCount - 1 } fun r =>
      (if r = e.port then [(.contribRefused, .tally e.tally, .refused .overflow)] else []) ++
      (if (s.tally e.tally).admin = some r ∨ (s.bound r e.tally = true ∧ (s.rightsOf r e.tally).watch = true)
        then [(.tallyFrozen, .tally e.tally, .none)] else []) := by
  have touched := s.touch_of_not_owed _ current
  have staged := (s.tally e.tally).applyProduct_stagedCount e.product
  rw [takes] at staged
  refine State.appliesTo_written awake turn touched
    (State.applyContribution_overflowed touched (by simp [live]) takes) staged fun r => ?_
  rw [postedTo_append, postedTo_one, State.postedTo_frozenRecipients]

end

/-! ## The kinds' rules (R57 to R61) -/

theorem Tally.applySumU_negative (x : Tally) (v : Int) (negative : n < 0) :
    x.applySumU v n = (x.noteRejected, .rejected) := if_pos negative

/-- Addition modulo 2^64; a sum past the greatest value is a rollover (R57). -/
theorem Tally.applySumU_wraps (x : Tally) (lo : 0 ≤ v) (hi : v < 2 ^ 64) (hn : 0 ≤ n) (small : n < 2 ^ 47) :
    x.applySumU v n = ({ x with
      value := some ((v + n) % 2 ^ 64)
      rollover := if 2 ^ 64 ≤ v + n ∧ x.rollover < 255 then x.rollover + 1 else x.rollover
      token := if 2 ^ 64 ≤ v + n then x.token + 1 else x.token }, .applied) := by
  rw [Tally.applySumU, if_neg (by omega)]
  by_cases wraps : 2 ^ 64 ≤ v + n
  · have rem : (v + n) % 2 ^ 64 = v + n - 2 ^ 64 := by omega
    rw [if_pos (by rw [maxUnsigned]; omega), rem]
    simp only [Tally.noteRollover, Tally.flagEvent, saturate, wraps, true_and, if_true]
  · have rem : (v + n) % 2 ^ 64 = v + n := by omega
    rw [if_neg (by rw [maxUnsigned]; omega), rem]
    simp only [wraps, false_and, if_false]

theorem Tally.applySumS_stored (x : Tally) (range : -2 ^ 63 ≤ v + n ∧ v + n ≤ 2 ^ 63 - 1) :
    x.applySumS v n = ({ x with value := some (v + n) }, .applied) := if_pos range

section
variable (range : ¬(-2 ^ 63 ≤ v + n ∧ v + n ≤ 2 ^ 63 - 1))
include range

theorem Tally.applySumS_clamped (saturate : x.policy = .saturate) : x.applySumS v n = ({ x with
    value := some (if 2 ^ 63 - 1 < v + n then 2 ^ 63 - 1 else -2 ^ 63)
    overflow := true
    token := x.token + 1 }, .applied) := by
  have outside : ¬(minSigned ≤ v + n ∧ v + n ≤ maxSigned) := range
  rw [Tally.applySumS, if_neg outside, saturate]
  rfl

theorem Tally.applySumS_refused (freeze : x.policy = .freeze) : x.applySumS v n = ({ x with
    state := .frozen
    overflow := true
    token := x.token + 1 }, .overflowed) := by
  have outside : ¬(minSigned ≤ v + n ∧ v + n ≤ maxSigned) := range
  rw [Tally.applySumS, if_neg outside, freeze]
  rfl

end

/-- The product when the value is absent, else the greater of the two (R61). -/
theorem Tally.applyPeak_eq (x : Tally) (n : Int) : x.applyPeak n = ({ x with
    value := some (match x.value with | none => n | some v => if v < n then n else v) }, .applied) := by
  unfold Tally.applyPeak
  cases x.value with
  | none => rfl
  | some v =>
    have greater : max v n = if v < n then n else v := by split <;> omega
    simp only [greater]

/-- Without limits there is nothing to evaluate (R12). -/
theorem Tally.evaluate_of_no_limits (upper : x.upper = none) (lower : x.lower = none) : x.evaluate = x := by
  unfold Tally.evaluate
  split
  · rfl
  · obtain ⟨⟩ := x
    simp_all

theorem Tally.limitMoves_of_no_limits (upper : x.upper = none) (lower : x.lower = none) : x.limitMoves = [] := by
  unfold Tally.limitMoves
  split
  · rfl
  · simp [upper, lower, Limit.moves]

/-! ## The obligations -/

/-- Settles O32: at a FROZEN tally the apply drops its contribution before the product is formed. -/
theorem applyDropsAtFrozen : Obligations.ApplyDropsAtFrozen := by
  intro s q e rest awake turn current frozen
  exact State.appliesTo_dropped awake turn current frozen

/-- Settles O33: a negative product is rejected, and the range of value and product leaves room for one wrap. -/
theorem applySumU : Obligations.ApplySumU := by
  intro s q e rest v awake turn current live kind value lo hi sound
  obtain ⟨-, small⟩ := sound.product
  have rule : (s.tally e.tally).applyProduct e.product = (s.tally e.tally).applySumU v e.product := by
    simp [Tally.applyProduct, kind, value]
  refine ⟨fun negative => ?_, fun positive => ?_⟩
  · rw [Tally.applySumU_negative _ _ (n := e.product) negative] at rule
    exact State.appliesTo_rejected awake turn current live rule
  · rw [Tally.applySumU_wraps _ (n := e.product) lo hi positive small] at rule
    exact State.appliesTo_applied awake turn current live rule

/-- Settles O34: the sum is stored, clamped or refused by its range and the policy. -/
theorem applySumS : Obligations.ApplySumS := by
  intro s q e rest v awake turn current live kind value
  have rule : (s.tally e.tally).applyProduct e.product = (s.tally e.tally).applySumS v e.product := by
    simp [Tally.applyProduct, kind, value]
  refine ⟨fun range => ?_, fun range saturate => ?_, fun range freeze => ?_⟩
  · rw [Tally.applySumS_stored _ (n := e.product) range] at rule
    exact State.appliesTo_applied awake turn current live rule
  · rw [Tally.applySumS_clamped (n := e.product) range saturate] at rule
    exact State.appliesTo_applied awake turn current live rule
  · rw [Tally.applySumS_refused (n := e.product) range freeze] at rule
    exact State.appliesTo_overflowed awake turn current live rule

/-- Settles O35: the greater value is stored, and without limits no move follows. -/
theorem applyPeak : Obligations.ApplyPeak := by
  intro s q e rest awake turn current live kind upper lower
  have rule : (s.tally e.tally).applyProduct e.product = (s.tally e.tally).applyPeak e.product := by
    simp [Tally.applyProduct, kind]
  rw [Tally.applyPeak_eq] at rule
  have applied := State.appliesTo_applied awake turn current live rule
  have silent : s.limitEvents e.tally [] = fun _ => [] := by
    funext r
    simp [State.limitEvents]
  rw [Tally.evaluate_of_no_limits, Tally.limitMoves_of_no_limits, silent] at applied
  · exact applied
  all_goals assumption

end Sys2Proof.Machine

/-! O36 to O39: direct access to a tally that is not owed. The touch changes nothing there, so each request is its
block's rule on the state with the frame taken. -/

namespace Sys2Proof.Machine

variable {s : State} {p : PortId} {tag : Byte} {h : HandleId} {e : ViewEntry} {u : TallyId}

/-! ## The value of a tally is replaced (R71, R73, R74) -/

theorem Tally.emptyValue_peak {x : Tally} (peak : x.kind = .peak) : x.emptyValue = none := by
  simp only [Tally.emptyValue, peak]

theorem Tally.emptyValue_sum {x : Tally} (sum : x.kind ≠ .peak) : x.emptyValue = some 0 := by
  unfold Tally.emptyValue
  split
  · contradiction
  · rfl

/-- Writing back a record changes nothing. -/
theorem State.setTally_tally (s : State) (u : TallyId) : s.setTally u (s.tally u) = s := by
  simp [State.setTally, State.tally]

theorem State.storeValue_same {v : Option Int} (same : v = (s.tally u).value) : s.storeValue u v = s := if_pos same

/-- A value that changes is evaluated with events (R74). -/
theorem State.storeValue_changed {v : Option Int} (changed : v ≠ (s.tally u).value) :
    s.storeValue u v = (s.setTally u { s.tally u with value := v }.evaluate).postList
      (s.moveNotices u { s.tally u with value := v }.limitMoves) :=
  (if_neg changed).trans (State.evaluateWithEvents_setTally rfl)

/-- An absent value is never evaluated (R125). -/
theorem State.storeValue_none (s : State) (u : TallyId) :
    s.storeValue u none = s.setTally u { s.tally u with value := none } := by
  by_cases absent : none = (s.tally u).value
  · have same : { s.tally u with value := none } = s.tally u := by rw [absent]
    rw [State.storeValue_same absent, same, State.setTally_tally]
  · rw [State.storeValue_changed absent]
    rfl

/-! ## Answers that come with a new tally record and events -/

/-- An answer on the state with the frame taken, one tally written and some events posted. -/
theorem State.onlyTallyAndEvents_taken (s : State) (p : PortId) (tag : Byte) (n : Nat) (u : TallyId) (y : Tally)
    (l : List Posting) (a : Answer) :
    let t := (((s.taken p tag n).setTally u y).postList l).respond p tag a
    s.answeredTo t p tag a.status a.payload ∧ t.tally u = y ∧ s.eventsAre t (postedTo l) ∧
      s.onlyTallyAndEvents t p u := by
  refine ⟨⟨by simp, by simp⟩, by simp, fun q => by simp [State.events_postList], ?_, by simp, by simp,
    fun q other => ?_, fun v other => by simp [other], fun g => by simp, ⟨fun g => by simp, by simp⟩, by simp, by simp,
    by simp⟩
  · simp [Port.sameEngine]
  · simp [Port.sameButEvents, Port.sameEngine, other]

theorem State.moveNotices_taken (s : State) (p : PortId) (tag : Byte) (n : Nat) (u : TallyId)
    (moves : List (EventKind × Side)) : (s.taken p tag n).moveNotices u moves = s.moveNotices u moves := by
  simp [State.moveNotices]

/-- A served request that replaces a tally's value by another one, and is answered. -/
theorem exec_replacesValue {r : Req} {pl payload : List Byte} {st : Status} {v : Option Int} (hs : s.serves p)
    (ha : accepts r pl = true) (changed : v ≠ (s.tally u).value)
    (acts : actOf r (s.taken p tag (frameBits pl)) p tag pl =
      ((s.taken p tag (frameBits pl)).storeValue u v).reply st payload) :
    let y := { s.tally u with value := v }
    ∃ t, exec (requestCommand r p tag pl) s = .next t ∧ s.answeredTo t p tag st payload ∧ t.tally u = y.evaluate ∧
      s.eventsAre t (s.limitEvents u y.limitMoves) ∧ s.onlyTallyAndEvents t p u := by
  intro y
  rw [State.storeValue_changed (s := s.taken p tag _) changed, State.moveNotices_taken, State.tally_taken] at acts
  have only := s.onlyTallyAndEvents_taken p tag (frameBits pl) u y.evaluate (s.moveNotices u y.limitMoves) ⟨st, payload⟩
  rw [funext (s.postedTo_moveNotices u y.limitMoves)] at only
  exact ⟨_, exec_answers hs ha acts, only⟩

/-! ## A sign byte and a magnitude in a payload (R168) -/

theorem byteAt_append (before after : List Byte) (b : Byte) : byteAt (before ++ b :: after) before.length = b := by
  simp [byteAt]

/-- A signed number at the place where it was written. -/
theorem readSigned_append {pl before after : List Byte} {i : Nat} {minus : Bool} {m : Nat} (small : m < 2 ^ 64)
    (place : before.length = i) (written : pl = before ++ (signedBytes minus m ++ after)) :
    readSigned (byteAt pl i) (fieldAt pl (i + 1) 8) = some (signedValue minus m) := by
  subst place written
  have sign := byteAt_append before (beBytes 8 m ++ after) (boolByte minus)
  have magnitude := fieldAt_append (before ++ [boolByte minus]) after 8 m (by omega)
  simp only [List.append_assoc, List.singleton_append, List.length_append, List.length_singleton] at magnitude
  simp only [signedBytes, List.cons_append, sign, magnitude, readSigned_boolByte]

/-! ## The four requests by a caller with the right -/

section
variable (entry : s.viewEntry p h = some e) (current : s.owed e.tally = false)
include entry current

theorem State.direct_current {right : Rights → Bool} (granted : right (s.rightsOf p e.tally) = true)
    (act : State → TallyId → Reply) : s.direct p (some h) right act = act s e.tally := by
  rw [State.direct_granted entry granted, State.touch_of_not_owed _ _ current]

/-- READ (R70). -/
theorem actRead_eq (granted : (s.rightsOf p e.tally).read = true) (tag : Byte) :
    actRead s p tag [handleByte h] = s.reply .ok ((s.tally e.tally).readResult e.tally) := by
  rw [actRead, byteAt_zero, readHandle_handleByte, State.direct_current entry current granted]

/-- TAKE (R71). -/
theorem actTake_eq (granted : (s.rightsOf p e.tally).draw = true) (tag : Byte) :
    actTake s p tag [handleByte h] = (s.storeValue e.tally (s.tally e.tally).emptyValue).reply .ok
      (tallyByte e.tally :: valueBytes (s.tally e.tally).value ++ intervalBytes (s.tally e.tally).tag) := by
  rw [actTake, byteAt_zero, readHandle_handleByte, State.direct_current entry current granted]

/-- CLEAR_FLAGS (R76). -/
theorem actClearFlags_eq (granted : (s.rightsOf p e.tally).read = true) (tag token : Byte) :
    actClearFlags s p tag [handleByte h, token] =
      if token = (s.tally e.tally).token then
        (s.setTally e.tally (s.tally e.tally).clearFlags).reply .ok [(s.tally e.tally).token + 1]
      else s.reply .stale [(s.tally e.tally).token, boolByte (s.tally e.tally).overflow,
        byteOf (s.tally e.tally).rollover, byteOf (s.tally e.tally).rejected, byteOf (s.tally e.tally).dropped] := by
  rw [actClearFlags, byteAt_zero, readHandle_handleByte, State.direct_current entry current granted]
  rfl

/-- EXCHANGE with both numbers in range of their fields (R73). -/
theorem actExchange_eq (granted : (s.rightsOf p e.tally).draw = true) (tag : Byte) (m1 m2 : Bool) {n1 n2 : Nat}
    (small1 : n1 < 2 ^ 64) (small2 : n2 < 2 ^ 64) :
    actExchange s p tag (handleByte h :: signedBytes m1 n1 ++ signedBytes m2 n2) =
      if (s.tally e.tally).kind = .peak then s.deny .badKind
      else if !(s.tally e.tally).kind.holds (signedValue m2 n2) then s.deny .badArg
      else if (s.tally e.tally).value = some (signedValue m1 n1) then
        (s.storeValue e.tally (some (signedValue m2 n2))).reply .ok
          (valueBytes (s.tally e.tally).value ++ valueBytes (some (signedValue m2 n2)))
      else s.reply .mismatch (valueBytes (s.tally e.tally).value) := by
  generalize written : handleByte h :: signedBytes m1 n1 ++ signedBytes m2 n2 = pl
  have handle : byteAt pl 0 = handleByte h := by rw [← written]; rfl
  have expected : readSigned (byteAt pl 1) (fieldAt pl 2 8) = some (signedValue m1 n1) :=
    readSigned_append (before := [handleByte h]) small1 rfl written.symm
  have new : readSigned (byteAt pl 10) (fieldAt pl 11 8) = some (signedValue m2 n2) :=
    readSigned_append (before := handleByte h :: signedBytes m1 n1) (after := []) small2 (by simp [signedBytes])
      (by rw [List.append_nil, written])
  rw [actExchange, expected, new, handle, readHandle_handleByte]
  exact State.direct_current entry current granted _

end

/-! ## The obligations -/

/-- Settles O36: READ writes nothing, so it is a frame taken and an answer. -/
theorem readReportsTheRecord : Obligations.ReadReportsTheRecord := by
  intro s p tag h e hs entry granted current x
  exact exec_denies (r := .read) hs rfl (actRead_eq (s.viewEntry_taken_of entry _) current granted tag)

/-- Settles O37: TAKE replaces the value by the kind's empty one. -/
theorem takeDrawsTheValue : Obligations.TakeDrawsTheValue := by
  intro s p tag h e hs entry granted current
  dsimp only
  have acts := actTake_eq (s := s.taken p tag (frameBits [handleByte h])) (s.viewEntry_taken_of entry _) current granted
    tag
  rw [State.tally_taken] at acts
  refine ⟨fun peak => ?_, fun sum zero => ?_, fun sum nonzero => ?_⟩
  · rw [Tally.emptyValue_peak peak, State.storeValue_none] at acts
    exact ⟨_, exec_answers (r := .take) hs rfl acts, s.onlyTally_taken p tag _ e.tally _ _⟩
  · rw [Tally.emptyValue_sum sum, State.storeValue_same (by rw [State.tally_taken, zero])] at acts
    exact exec_denies (r := .take) hs rfl acts
  · rw [Tally.emptyValue_sum sum] at acts
    exact exec_replacesValue (r := .take) hs rfl nonzero.symm acts

/-- Settles O38: the clauses are the branches of EXCHANGE in order, read on the state with the frame taken. -/
theorem exchangeComparesAndStores : Obligations.ExchangeComparesAndStores := by
  intro s p tag h e m1 m2 n1 n2 hs entry granted current small1 small2
  dsimp only
  have ha : accepts .exchange (handleByte h :: signedBytes m1 n1 ++ signedBytes m2 n2) = true := by
    simp [accepts, payloadLength, signedBytes]
  have acts := actExchange_eq (s := s.taken p tag (frameBits (handleByte h :: signedBytes m1 n1 ++ signedBytes m2 n2)))
    (s.viewEntry_taken_of entry _) current granted tag m1 m2 small1 small2
  rw [State.tally_taken] at acts
  refine ⟨fun peak => ?_, fun sum outside => ?_, fun sum inside other => ?_, fun sum inside matching same => ?_,
    fun sum inside matching changed => ?_⟩
  · rw [if_pos peak] at acts
    exact exec_denies (r := .exchange) hs ha acts
  all_goals rw [if_neg sum] at acts
  · rw [if_pos (by simp [outside])] at acts
    exact exec_denies (r := .exchange) hs ha acts
  all_goals rw [if_neg (by simp [inside])] at acts
  · rw [if_neg other] at acts
    exact exec_denies (r := .exchange) hs ha acts
  all_goals rw [if_pos matching] at acts
  · rw [State.storeValue_same (by rw [State.tally_taken, matching, same])] at acts
    exact exec_denies (r := .exchange) hs ha acts
  · exact exec_replacesValue (r := .exchange) hs ha (by simp [matching, changed]) acts

/-- Settles O39: the token decides between the two branches of CLEAR_FLAGS. -/
theorem clearFlagsNeedsTheToken : Obligations.ClearFlagsNeedsTheToken := by
  intro s p tag h e token hs entry granted current
  dsimp only
  have acts := actClearFlags_eq (s := s.taken p tag (frameBits [handleByte h, token])) (s.viewEntry_taken_of entry _)
    current granted tag token
  rw [State.tally_taken] at acts
  refine ⟨fun fresh => ?_, fun stale => ?_⟩
  · rw [if_pos fresh] at acts
    exact ⟨_, exec_answers (r := .clearFlags) hs rfl acts, s.onlyTally_taken p tag _ e.tally _ _⟩
  · rw [if_neg stale] at acts
    exact exec_denies (r := .clearFlags) hs rfl acts

end Sys2Proof.Machine

/-! SUPPORT. What interval tags depend on: tags and groups of the tallies, numbers and walks of the groups, and the
FILLING records. Most writes leave all of it; a copy step moves one member (R80, R95). -/

namespace Sys2Proof.Machine

variable {s t w : State} {p : PortId} {u : TallyId} {g : GroupId}

/-! ## What the tags depend on -/

/-- What a close knows of a FILLING record: number, members and cells. -/
def SnapRecord.outline (r : SnapRecord) : Option (Interval × List TallyId × List (Option SnapCell)) :=
  if r.state = .filling then some (r.interval, r.members, r.cells) else none

/-- The outlines of the FILLING records of a ring. -/
def outlines (l : List SnapRecord) : List (Interval × List TallyId × List (Option SnapCell)) :=
  l.filterMap SnapRecord.outline

/-- Definedness, group and interval tag are left as they were. -/
structure Tally.sameTag (x y : Tally) : Prop where
  defined : y.defined = x.defined
  group : y.group = x.group
  tag : y.tag = x.tag

theorem Tally.sameTag.refl (x : Tally) : x.sameTag x := ⟨rfl, rfl, rfl⟩

theorem Tally.sameTag.trans {x y z : Tally} (h : x.sameTag y) (h' : y.sameTag z) : x.sameTag z :=
  ⟨h'.defined.trans h.defined, h'.group.trans h.group, h'.tag.trans h.tag⟩

/-- The tags, the groups' numbers and walks, and the FILLING records' outlines are left as they were. -/
structure State.sameTags (s t : State) : Prop where
  tally : ∀ u, (s.tally u).sameTag (t.tally u)
  interval : ∀ g, (t.group g).interval = (s.group g).interval
  walk : ∀ g, (t.group g).walk = (s.group g).walk
  ring : ∀ g, outlines (t.ring g) = outlines (s.ring g)

theorem State.sameTags.refl (s : State) : s.sameTags s := ⟨fun _ => .refl _, fun _ => rfl, fun _ => rfl, fun _ => rfl⟩

theorem State.sameTags.trans (h : s.sameTags t) (h' : t.sameTags w) : s.sameTags w where
  tally u := (h.tally u).trans (h'.tally u)
  interval g := (h'.interval g).trans (h.interval g)
  walk g := (h'.walk g).trans (h.walk g)
  ring g := (h'.ring g).trans (h.ring g)

theorem SnapRecord.outline_filling {r : SnapRecord} (filling : r.state = .filling) :
    r.outline = some (r.interval, r.members, r.cells) := if_pos filling

theorem SnapRecord.outline_ready {r : SnapRecord} (ready : r.state = .ready) : r.outline = none :=
  if_neg (by simp [ready])

/-- A FILLING record of a ring is found, by its outline, in every ring of the same outlines. -/
theorem exists_filling {l l' : List SnapRecord} (same : outlines l' = outlines l) {r : SnapRecord} (hr : r ∈ l)
    (filling : r.state = .filling) : ∃ r' ∈ l', r'.state = .filling ∧ r'.interval = r.interval ∧
      r'.members = r.members ∧ r'.cells = r.cells := by
  have listed : (r.interval, r.members, r.cells) ∈ outlines l' := by
    rw [same]
    exact List.mem_filterMap.mpr ⟨r, hr, r.outline_filling filling⟩
  obtain ⟨r', hr', outline⟩ := List.mem_filterMap.mp listed
  unfold SnapRecord.outline at outline
  split at outline
  · rename_i filling'
    simp only [Option.some.injEq, Prod.mk.injEq] at outline
    obtain ⟨number, members, cells⟩ := outline
    exact ⟨r', hr', filling', number, members, cells⟩
  · cases outline

/-- Tags stay sound where nothing they depend on changes. -/
theorem State.TagsSound.of_sameTags (hs : s.TagsSound) (h : s.sameTags t) : t.TagsSound := by
  obtain ⟨records, others⟩ := hs
  refine ⟨fun g r hr filling => ?_, fun u defined outside => ?_⟩
  · obtain ⟨r', hr', filling', number, members, cells⟩ := exists_filling (h.ring g).symm hr filling
    have sound := records g r' hr' filling'
    simp only [State.memberSound, h.interval, h.walk, ← number, ← members, ← cells, (h.tally _).defined,
      (h.tally _).group, (h.tally _).tag] at sound ⊢
    exact sound
  · obtain ⟨same, group, tag⟩ := h.tally u
    rw [group] at outside
    rw [group, tag, h.interval]
    refine others u (same ▸ defined) fun r hr filling => ?_
    obtain ⟨r', hr', filling', -, members, -⟩ := exists_filling (h.ring _) hr filling
    exact members ▸ outside r' hr' filling'

/-! ## The writes that leave them -/

theorem State.sameTags_of_behindPorts (h : s.sameBehindPorts t) : s.sameTags t := by
  obtain ⟨tallies, groups, ⟨rings, -⟩, -⟩ := h
  exact ⟨fun u => by rw [tallies u]; exact .refl _, fun g => by rw [groups], fun g => by rw [groups],
    fun g => by rw [rings]⟩

theorem State.sameTags_setPort (s : State) (p : PortId) (y : Port) : s.sameTags (s.setPort p y) :=
  ⟨fun _ => .refl _, fun _ => rfl, fun _ => rfl, fun _ => rfl⟩

theorem State.sameTags_setTally {y : Tally} (h : (s.tally u).sameTag y) : s.sameTags (s.setTally u y) where
  tally v := by
    rw [State.tally_setTally]
    split
    · subst v; exact h
    · exact .refl _
  interval _ := rfl
  walk _ := rfl
  ring _ := rfl

theorem State.sameTags_setGroup {y : Group} (interval : y.interval = (s.group g).interval)
    (walk : y.walk = (s.group g).walk) : s.sameTags (s.setGroup g y) where
  tally _ := .refl _
  interval k := by rw [State.group_setGroup]; split <;> simp [*]
  walk k := by rw [State.group_setGroup]; split <;> simp [*]
  ring _ := rfl

theorem State.sameTags_postList (s : State) (l : List Posting) : s.sameTags (s.postList l) :=
  ⟨fun u => by rw [State.tally_postList]; exact .refl _, fun g => by simp, fun g => by simp, fun g => by simp⟩

theorem State.sameTags_evaluateWithEvents (s : State) (u : TallyId) : s.sameTags (s.evaluateWithEvents u) := by
  rw [State.evaluateWithEvents_eq]
  exact (State.sameTags_setTally ⟨by simp [Tally.defined], by simp, by simp⟩).trans (State.sameTags_postList _ _)

/-- A port that leaves a FILLING record leaves its outline (R108). -/
theorem SnapRecord.outline_afterLeaving (r : SnapRecord) (p : PortId) :
    (r.afterLeaving p).bind SnapRecord.outline = r.outline := by
  unfold SnapRecord.afterLeaving
  split
  · dsimp only
    split
    · rfl
    · split
      · exact (r.outline_ready ‹_›).symm
      · rfl
  · rfl

theorem State.sameTags_leaveReaders (s : State) (p : PortId) (g : GroupId) (which : SnapRecord → Bool) :
    s.sameTags (s.leaveReaders p g which) where
  tally _ := .refl _
  interval _ := rfl
  walk _ := rfl
  ring k := by
    rw [State.ring_leaveReaders]
    split
    · rw [outlines, List.filterMap_filterMap]
      refine List.filterMap_congr fun r _ => ?_
      split
      · exact r.outline_afterLeaving p
      · rfl
    · rfl

/-! ## The copy step (R95) -/

@[simp] theorem SnapRecord.writeCell_state (r : SnapRecord) (c : SnapCell) : (r.writeCell u c).state = r.state := by
  unfold SnapRecord.writeCell; split <;> rfl

@[simp] theorem SnapRecord.writeCell_members (r : SnapRecord) (c : SnapCell) :
    (r.writeCell u c).members = r.members := by
  unfold SnapRecord.writeCell; split <;> rfl

@[simp] theorem SnapRecord.writeCell_interval (r : SnapRecord) (c : SnapCell) :
    (r.writeCell u c).interval = r.interval := by
  unfold SnapRecord.writeCell; split <;> rfl

theorem SnapRecord.writeCell_filling {r : SnapRecord} {c : SnapCell} (filling : r.state = .filling)
    (member : u ∈ r.members) : (r.writeCell u c).cells = r.cells.set (r.members.idxOf u) (some c) := by
  simp [SnapRecord.writeCell, filling, member]

theorem SnapRecord.writeCell_ready {r : SnapRecord} {c : SnapCell} (kept : r.state = .ready ∨ u ∉ r.members) :
    r.writeCell u c = r := by
  refine if_neg fun written => ?_
  obtain ⟨filling, member⟩ := written
  rcases kept with ready | other
  · simp [ready] at filling
  · exact other member

/-- The records of a ring after a copy step are those before, with a cell written in those of the tally's group. -/
theorem State.mem_ring_copyStep {r : SnapRecord} (hr : r ∈ (s.copyStep u).ring g) : ∃ r' ∈ s.ring g,
    r.state = r'.state ∧ r.members = r'.members ∧ r.interval = r'.interval ∧
      r = if g = (s.tally u).group then r'.writeCell u (s.tally u).closingCell else r' := by
  rw [State.ring_copyStep] at hr
  split at hr
  · obtain ⟨r', hr', rfl⟩ := List.mem_map.mp hr
    exact ⟨r', hr', by simp, by simp, by simp, (if_pos ‹_›).symm⟩
  · exact ⟨r, hr, rfl, rfl, rfl, (if_neg ‹_›).symm⟩

/-- The copied member's cell is written and it carries the group's number; every other member is as it was. -/
theorem State.memberSound.copyStep {r : SnapRecord} (h : s.memberSound g r) (filling : r.state = .filling) :
    (s.copyStep u).memberSound g
      (if g = (s.tally u).group then r.writeCell u (s.tally u).closingCell else r) := by
  obtain ⟨nodup, length, number, members⟩ := h
  by_cases member : u ∈ r.members
  · have group : g = (s.tally u).group := by
      obtain ⟨i, hi⟩ := List.getElem?_of_mem member
      obtain ⟨-, group, -⟩ := members i u hi
      exact group.symm
    rw [if_pos group]
    unfold State.memberSound
    rw [SnapRecord.writeCell_filling filling member, SnapRecord.writeCell_members, SnapRecord.writeCell_interval]
    refine ⟨nodup, by simpa using length, number, fun i v hi => ?_⟩
    obtain ⟨inside, rfl⟩ := List.getElem?_eq_some_iff.mp hi
    obtain ⟨defined, hv, cell⟩ := members i _ hi
    rw [State.tally_copyStep]
    by_cases copied : r.members[i] = u
    · have place : r.members.idxOf u = i := by rw [← copied]; exact nodup.idxOf_getElem i inside
      rw [if_pos copied]
      subst copied
      refine ⟨by simpa [Tally.defined] using defined, by simpa using group.symm,
        .inl ⟨(s.tally r.members[i]).closingCell, ?_, by simp [← group]⟩⟩
      rw [place, List.getElem?_set_self (by omega)]
    · have place : r.members.idxOf u ≠ i := by
        rintro rfl
        exact copied (List.getElem_idxOf inside)
      rw [if_neg copied, List.getElem?_set_ne place]
      exact ⟨defined, hv, cell⟩
  · have same : (if g = (s.tally u).group then r.writeCell u (s.tally u).closingCell else r) = r := by
      rw [SnapRecord.writeCell_ready (.inr member), ite_self]
    rw [same]
    refine ⟨nodup, length, number, fun i v hi => ?_⟩
    have other : v ≠ u := by
      rintro rfl
      exact member (List.mem_of_getElem? hi)
    rw [State.tally_copyStep_ne _ _ _ other]
    exact members i v hi

theorem State.TagsSound.copyStep (hs : s.TagsSound) (u : TallyId) : (s.copyStep u).TagsSound := by
  obtain ⟨records, others⟩ := hs
  refine ⟨fun g r hr filling => ?_, fun v defined outside => ?_⟩
  · obtain ⟨r', hr', state, -, -, rfl⟩ := State.mem_ring_copyStep hr
    have filling' : r'.state = .filling := state ▸ filling
    exact (records g r' hr' filling').copyStep filling'
  · by_cases copied : v = u
    · subst copied; simp
    · simp only [State.tally_copyStep_ne _ _ _ copied, State.group_copyStep] at defined outside ⊢
      refine others v defined fun r hr filling => ?_
      rw [State.ring_copyStep] at outside
      split at outside
      · simpa using outside _ (List.mem_map_of_mem hr) (by simpa using filling)
      · exact outside r hr filling

theorem State.TagsSound.touch (hs : s.TagsSound) (u : TallyId) : (s.touch u).TagsSound := by
  unfold State.touch
  split
  · exact hs.copyStep u
  · exact hs

end Sys2Proof.Machine

/-! SUPPORT. The actions that leave the interval tags, but for the copy step of a first touch (R80, R96): all requests
but DEFINE, RETIRE and CLOSE, and the part's own steps but the copier's, the close end and the timed close. -/

namespace Sys2Proof.Machine

variable {s t w : State} {p : PortId} {u : TallyId} {g : GroupId}

/-! ## Actions that do at most a copy step -/

/-- The tags are left as they were, but for a copy step of one tally that may come first. -/
def State.tagsTouched (s t : State) : Prop := s.sameTags t ∨ ∃ u, (s.touch u).sameTags t

theorem State.TagsSound.of_tagsTouched (hs : s.TagsSound) (h : s.tagsTouched t) : t.TagsSound := by
  obtain same | ⟨u, same⟩ := h
  · exact hs.of_sameTags same
  · exact (hs.touch u).of_sameTags same

theorem State.tagsTouched.refl (s : State) : s.tagsTouched s := .inl (.refl s)

theorem State.tagsTouched.trans (h : s.tagsTouched t) (h' : t.sameTags w) : s.tagsTouched w :=
  h.imp (·.trans h') fun ⟨u, same⟩ => ⟨u, same.trans h'⟩

theorem State.tagsTouched_setPort (s : State) (p : PortId) (y : Port) : s.tagsTouched (s.setPort p y) :=
  .inl (s.sameTags_setPort p y)

theorem State.tagsTouched_setTally {y : Tally} (h : (s.tally u).sameTag y) : s.tagsTouched (s.setTally u y) :=
  .inl (State.sameTags_setTally h)

section
variable {P : State → Prop} (refused : P s)
include refused

/-- What holds of a refusal and of the action behind the checks holds of the checked request. -/
theorem State.onHandle_cases {o : Option HandleId} {act : HandleId → ViewEntry → Reply}
    (acts : ∀ h e, s.viewEntry p h = some e → P (act h e).1) : P (s.onHandle p o act).1 := by
  unfold State.onHandle
  split
  · exact refused
  · split
    · exact refused
    · exact acts _ _ ‹_›

theorem State.asTallyAdmin_cases {r : Reply} (acts : P r.1) : P (s.asTallyAdmin p u r).1 := by
  unfold State.asTallyAdmin
  split
  · exact acts
  · exact refused

theorem State.onGroup_cases {o : Option GroupId} {act : GroupId → Reply} (acts : ∀ g, P (act g).1) :
    P (s.onGroup o act).1 := by
  unfold State.onGroup
  split
  · exact refused
  · exact acts _

theorem State.asGroupAdmin_cases {r : Reply} (acts : P r.1) : P (s.asGroupAdmin p g r).1 := by
  unfold State.asGroupAdmin
  split
  · exact acts
  · exact refused

end

/-- A direct access touches the tally, and acts on what it finds there. -/
theorem State.direct_tagsTouched {o : Option HandleId} {right : Rights → Bool} {act : State → TallyId → Reply}
    (acts : ∀ (s : State) u, s.sameTags (act s u).1) : s.tagsTouched (s.direct p o right act).1 := by
  refine State.onHandle_cases (.refl s) fun _ e _ => ?_
  split
  · exact .inr ⟨e.tally, acts _ _⟩
  · exact .refl s

theorem State.sameTags_storeValue (s : State) (u : TallyId) (v : Option Int) : s.sameTags (s.storeValue u v) := by
  unfold State.storeValue
  split
  · exact .refl s
  · exact (State.sameTags_setTally (y := { s.tally u with value := v }) ⟨rfl, rfl, rfl⟩).trans
      (State.sameTags_evaluateWithEvents _ u)

@[simp] theorem State.state_touch (s : State) (u : TallyId) : ((s.touch u).tally u).state = (s.tally u).state := by
  unfold State.touch
  split <;> simp

/-- FREEZE and RESUME of a defined tally leave it defined. -/
theorem State.setTallyState_tagsTouched {st : TallyState} (defined : (s.tally u).state ≠ .free) (hst : st ≠ .free) :
    s.tagsTouched (s.setTallyState u st) :=
  .inr ⟨u, State.sameTags_setTally ⟨by
    rw [Tally.defined, Tally.defined, State.state_touch, bne_iff_ne.mpr hst, bne_iff_ne.mpr defined], rfl, rfl⟩⟩

theorem State.sameTags_of_stages {l : List Staged} (h : s.stages t p l) : s.sameTags t where
  tally u := by rw [h.tally]; exact ⟨rfl, rfl, rfl⟩
  interval g := by rw [h.groups]
  walk g := by rw [h.groups]
  ring g := by rw [h.store.1]

/-! ## The requests -/

section
variable (tag : Byte) (pl : List Byte)

theorem actHello_tagsTouched : s.tagsTouched (actHello s p tag pl).1 := by
  unfold actHello
  split <;> exact s.tagsTouched_setPort p _

theorem actHelloTaken_tagsTouched : s.tagsTouched (actHelloTaken s p tag pl).1 := by
  unfold actHelloTaken
  split <;> exact s.tagsTouched_setPort p _

theorem actSetMask_tagsTouched : s.tagsTouched (actSetMask s p tag pl).1 := by
  unfold actSetMask
  split
  · exact .refl s
  · exact s.tagsTouched_setPort p _

theorem actTakeEvent_tagsTouched : s.tagsTouched (actTakeEvent s p tag pl).1 := by
  unfold actTakeEvent
  split
  · exact .refl s
  · exact s.tagsTouched_setPort p _

theorem actAckEvent_tagsTouched : s.tagsTouched (actAckEvent s p tag pl).1 := by
  unfold actAckEvent
  split
  · exact .refl s
  · exact s.tagsTouched_setPort p _

theorem actGrant_tagsTouched : s.tagsTouched (actGrant s p tag pl).1 := by
  obtain same | ⟨u, rights, -, same⟩ := actGrant_state (s := s) (p := p) tag pl
  · rw [same]; exact .refl s
  · rw [same]; exact State.tagsTouched_setTally ⟨rfl, rfl, rfl⟩

theorem actClaimTally_tagsTouched : s.tagsTouched (actClaimTally s p tag pl).1 := by
  refine State.onHandle_cases (.refl s) fun _ e _ => ?_
  dsimp only
  split
  · exact .refl s
  · exact State.tagsTouched_setTally ⟨rfl, rfl, rfl⟩

theorem State.tagsTouched_setLimit (s : State) (u : TallyId) (d : Side) (l : Option Limit) :
    s.tagsTouched (s.setTally u ((s.tally u).setLimit d l)) :=
  State.tagsTouched_setTally (by cases d <;> exact ⟨rfl, rfl, rfl⟩)

theorem actSetLimit_tagsTouched : s.tagsTouched (actSetLimit s p tag pl).1 := by
  unfold actSetLimit
  split
  · rename_i d op level _ _ _
    refine State.onHandle_cases (.refl s) fun _ e _ => State.asTallyAdmin_cases (.refl s) ?_
    dsimp only
    split
    · exact .refl s
    · cases op with
      | report => exact .refl s
      | remove => exact s.tagsTouched_setLimit e.tally d none
      | set =>
        dsimp only
        split
        · exact s.tagsTouched_setLimit e.tally d _
        · exact .refl s
  · exact .refl s

theorem actBind_tagsTouched : s.tagsTouched (actBind s p tag pl).1 := by
  unfold actBind
  split
  · dsimp only
    split
    · exact .refl s
    · split
      · exact .refl s
      · split
        · exact .refl s
        · split
          · exact .refl s
          · exact (s.tagsTouched_setPort p _).trans (State.sameTags_setTally ⟨rfl, rfl, rfl⟩)
  · exact .refl s

theorem actUnbind_tagsTouched : s.tagsTouched (actUnbind s p tag pl).1 :=
  State.onHandle_cases (.refl s) fun _ _ _ =>
    (s.tagsTouched_setPort p _).trans (State.sameTags_setTally ⟨rfl, rfl, rfl⟩)

theorem actDrain_tagsTouched : s.tagsTouched (actDrain s p tag pl).1 := by
  unfold actDrain
  split
  · exact .refl s
  · exact s.tagsTouched_setPort p _

theorem actExchange_tagsTouched : s.tagsTouched (actExchange s p tag pl).1 := by
  unfold actExchange
  split
  · refine State.direct_tagsTouched fun s u => ?_
    dsimp only
    split
    · exact .refl s
    · split
      · exact .refl s
      · split
        · exact s.sameTags_storeValue u _
        · exact .refl s
  · exact .refl s

theorem actClearFlags_tagsTouched : s.tagsTouched (actClearFlags s p tag pl).1 := by
  refine State.direct_tagsTouched fun s u => ?_
  dsimp only
  split
  · exact State.sameTags_setTally ⟨rfl, rfl, rfl⟩
  · exact .refl s

theorem actClaimGroup_tagsTouched : s.tagsTouched (actClaimGroup s p tag pl).1 := by
  refine State.onGroup_cases (.refl s) fun g => ?_
  dsimp only
  split
  · exact .refl s
  · exact .inl (State.sameTags_setGroup rfl rfl)

theorem actSetGroup_tagsTouched : s.tagsTouched (actSetGroup s p tag pl).1 := by
  unfold actSetGroup
  split
  · exact .refl s
  · exact State.onGroup_cases (.refl s) fun g =>
      State.asGroupAdmin_cases (.refl s) (.inl (State.sameTags_setGroup rfl rfl))

theorem actSnapList_tagsTouched : s.tagsTouched (actSnapList s p tag pl).1 := by
  unfold actSnapList
  split <;> exact .refl s

theorem actReadSnap_tagsTouched : s.tagsTouched (actReadSnap s p tag pl).1 := by
  have unchanged : (actReadSnap s p tag pl).1 = s := by
    unfold actReadSnap State.reply State.deny
    grind
  rw [unchanged]
  exact .refl s

theorem actRelease_tagsTouched : s.tagsTouched (actRelease s p tag pl).1 := by
  unfold actRelease
  dsimp only
  split
  · exact .refl s
  · split
    · exact .refl s
    · split
      · exact .refl s
      · exact .inl (s.sameTags_leaveReaders p _ _)

/-- All requests but DEFINE, RETIRE and CLOSE leave the tags, but for the copy step of a first touch. -/
theorem actOf_tagsTouched (hs : s.CountsAgree) {r : Req} (other : r ≠ .define ∧ r ≠ .retire ∧ r ≠ .close) :
    s.tagsTouched (actOf r s p tag pl).1 := by
  obtain ⟨hd, hr, hc⟩ := other
  cases r
  case define | retire | close => contradiction
  case hello => exact actHello_tagsTouched tag pl
  case leave => exact s.tagsTouched_setPort p _
  case setMask => exact actSetMask_tagsTouched tag pl
  case takeEvent => exact actTakeEvent_tagsTouched tag pl
  case ackEvent => exact actAckEvent_tagsTouched tag pl
  case grant => exact actGrant_tagsTouched tag pl
  case freeze | resume =>
    exact State.onHandle_cases (.refl s) fun _ e entry => State.asTallyAdmin_cases (.refl s)
      (State.setTallyState_tagsTouched (hs.not_free entry) nofun)
  case claimTally => exact actClaimTally_tagsTouched tag pl
  case setLimit => exact actSetLimit_tagsTouched tag pl
  case bind => exact actBind_tagsTouched tag pl
  case unbind => exact actUnbind_tagsTouched tag pl
  case post => exact .inl (State.sameTags_of_stages (s.postLoop_stages p (postEntries pl)).2)
  case drain => exact actDrain_tagsTouched tag pl
  case read => exact State.direct_tagsTouched fun s _ => .refl s
  case take => exact State.direct_tagsTouched fun s u => s.sameTags_storeValue u _
  case exchange => exact actExchange_tagsTouched tag pl
  case clearFlags => exact actClearFlags_tagsTouched tag pl
  case claimGroup => exact actClaimGroup_tagsTouched tag pl
  case setGroup => exact actSetGroup_tagsTouched tag pl
  case groupStatus => exact State.onGroup_cases (.refl s) fun _ => .refl s
  case snapList => exact actSnapList_tagsTouched tag pl
  case readSnap => exact actReadSnap_tagsTouched tag pl
  case release => exact actRelease_tagsTouched tag pl

end

/-! ## The part's own steps -/

theorem State.sameTags_respond (s : State) (p : PortId) (tag : Byte) (a : Answer) : s.sameTags (s.respond p tag a) :=
  s.sameTags_setPort p _

theorem State.sameTags_noteStep (s : State) (p : PortId) (step : Option EndStep) : s.sameTags (s.noteStep p step) :=
  s.sameTags_setPort p _

theorem State.sameTags_draw (s : State) : s.sameTags s.draw :=
  ⟨fun _ => .refl _, fun _ => rfl, fun _ => rfl, fun _ => rfl⟩

theorem State.sameTags_foldl {α : Type} {f : State → α → State} (same : ∀ (s : State) x, s.sameTags (f s x))
    (l : List α) (s : State) : s.sameTags (l.foldl f s) := by
  induction l generalizing s with
  | nil => exact .refl s
  | cons x l ih => exact (same s x).trans (ih _)

theorem State.sameTags_endReaders (s : State) (p : PortId) : s.sameTags (s.endReaders p) :=
  (State.sameTags_foldl (fun s g => s.sameTags_leaveReaders p g _) _ s).trans (State.sameTags_noteStep _ p _)

theorem State.sameTags_endTallyAdmin (s : State) (p : PortId) : s.sameTags (s.endTallyAdmin p) := by
  have vacates : ∀ (s : State) u, s.sameTags (s.vacateTally p u) := fun s u => by
    rw [State.vacateTally, State.postTo_eq]
    exact (State.sameTags_setTally (y := { s.tally u with admin := none }) ⟨rfl, rfl, rfl⟩).trans
      (State.sameTags_postList _ _)
  exact ((State.sameTags_foldl vacates (s.administered p) s).trans (State.sameTags_noteStep _ p _)).trans
    (State.sameTags_draw _)

theorem State.sameTags_endGroupAdmin (s : State) (p : PortId) : s.sameTags (s.endGroupAdmin p) := by
  have vacates : ∀ (s : State) g, s.sameTags (s.vacateGroup p g) := fun s g => by
    rw [State.vacateGroup, State.postTo_eq]
    exact (State.sameTags_setGroup (y := { s.group g with admin := none }) rfl rfl).trans
      (State.sameTags_postList _ _)
  exact ((State.sameTags_foldl vacates (s.administeredGroups p) s).trans (State.sameTags_noteStep _ p _)).trans
    (State.sameTags_draw _)

theorem State.sameTags_endViews (s : State) (p : PortId) : s.sameTags (s.endViews p) :=
  ⟨fun u => by rw [State.tally_endViews]; exact ⟨rfl, rfl, rfl⟩, fun _ => rfl, fun _ => rfl, fun _ => rfl⟩

theorem State.sameTags_openAfterEnd (s : State) (p : PortId) : s.sameTags (s.openAfterEnd p) := by
  unfold State.openAfterEnd
  split
  · exact (s.sameTags_setPort p _).trans (State.sameTags_respond _ p _ _)
  · exact .refl s

theorem State.sameTags_postNext (s : State) (p : PortId) : s.sameTags (s.postNext p) := by
  have progress : ∀ (s : State) w rest sts, s.sameTags (s.postProgress p w rest sts) := fun s w rest sts =>
    State.sameTags_of_behindPorts (s.postProgress_progresses p w rest sts).behind
  unfold State.postNext
  split
  · exact .refl s
  · split
    · exact progress s _ _ _
    · rename_i h q rest _
      have examined := State.sameTags_of_stages (s.examineEntry_stages p h q).2
      dsimp only
      split <;> exact examined.trans (progress _ _ _ _)

theorem State.sameTags_tickEdge (s : State) : s.sameTags s.tickEdge := by
  have edge : ∀ x : Group, x.meetEdge.interval = x.interval ∧ x.meetEdge.walk = x.walk := fun x => by
    unfold Group.meetEdge
    split
    · exact ⟨rfl, rfl⟩
    · split <;> exact ⟨rfl, rfl⟩
  exact ⟨fun _ => .refl _, fun g => by rw [State.group_tickEdge, (edge _).1],
    fun g => by rw [State.group_tickEdge, (edge _).2], fun _ => rfl⟩

theorem State.sameTags_assertPrst (s : State) (p : PortId) : s.sameTags (s.assertPrst p) := by
  unfold State.assertPrst
  dsimp only
  split
  · exact s.sameTags_setPort p _
  · split
    · exact .refl s
    · exact s.sameTags_setPort p _

/-! ## The apply (R54) -/

/-- A defined tally stays defined when it takes a product. -/
theorem Tally.applyProduct_sameTag (x : Tally) (n : Int) (defined : x.state ≠ .free) :
    x.sameTag (x.applyProduct n).1 := by
  obtain ⟨-, -, free⟩ := x.applyProduct_counts n
  refine ⟨?_, (x.applyProduct_sameMake n).group, ?_⟩
  · have after : (x.applyProduct n).1.state ≠ .free := fun h => defined (free h)
    rw [Tally.defined, Tally.defined, bne_iff_ne.mpr defined, bne_iff_ne.mpr after]
  · unfold Tally.applyProduct
    split
    · unfold Tally.applySumU; split
      · rfl
      · split <;> rfl
    · unfold Tally.applySumS; split
      · rfl
      · split <;> rfl
    · unfold Tally.applyPeak; split <;> rfl

theorem State.applyContribution_tagsTouched {e : Staged} (defined : (s.tally e.tally).state ≠ .free) :
    s.tagsTouched (s.applyContribution e) := by
  refine .inr ⟨e.tally, ?_⟩
  have written : ∀ {y : Tally} (l : List Posting), ((s.touch e.tally).tally e.tally).sameTag y →
      (s.touch e.tally).sameTags (((s.touch e.tally).setTally e.tally y).postList l) := fun l same =>
    (State.sameTags_setTally same).trans (State.sameTags_postList _ l)
  by_cases frozen : ((s.touch e.tally).tally e.tally).state = .frozen
  · rw [State.applyContribution_dropped rfl frozen]
    exact written _ ⟨rfl, rfl, rfl⟩
  · have product := ((s.touch e.tally).tally e.tally).applyProduct_sameTag e.product (by simpa using defined)
    rcases takes : ((s.touch e.tally).tally e.tally).applyProduct e.product with ⟨y, _ | _ | _⟩
    all_goals rw [takes] at product
    · rw [State.applyContribution_applied rfl frozen takes]
      exact written _ (product.trans ⟨by simp [Tally.defined, Tally.noteApplied], by simp [Tally.noteApplied],
        by simp [Tally.noteApplied]⟩)
    · rw [State.applyContribution_rejected rfl frozen takes]
      exact written _ product
    · rw [State.applyContribution_overflowed rfl frozen takes]
      exact written _ product

/-- A staged contribution names a defined tally (R18, R48). -/
theorem State.CountsAgree.staged_not_free (hs : s.CountsAgree) {e : Staged} (staged : e ∈ (s.port p).fifo) :
    (s.tally e.tally).state ≠ .free := by
  intro free
  obtain ⟨-, count, none⟩ := hs.1 e.tally
  obtain ⟨-, zero⟩ := none free
  have here : 0 < (s.port p).fifo.countP (fun x => x.tally == e.tally) :=
    List.countP_pos_iff.mpr ⟨e, staged, by simp⟩
  have le : (s.port p).fifo.countP (fun x => x.tally == e.tally) ≤ s.stagings e.tally :=
    List.single_le_sum (fun _ _ => Nat.zero_le _) _ (List.mem_map.mpr ⟨p, List.mem_finRange p, rfl⟩)
  omega

theorem State.sameTags_leaveFifo (s : State) (q : PortId) (e : Staged) (rest : List Staged) :
    s.sameTags (s.leaveFifo q e rest) :=
  (s.sameTags_setPort q _).trans (State.sameTags_setTally ⟨rfl, rfl, rfl⟩)

theorem State.sameTags_pointAt (s : State) (q : PortId) : s.sameTags (s.pointAt q) :=
  ⟨fun _ => .refl _, fun _ => rfl, fun _ => rfl, fun _ => rfl⟩

theorem State.applyNext_tagsTouched (hs : s.CountsAgree) : s.tagsTouched s.applyNext := by
  unfold State.applyNext
  split
  · exact .refl s
  · rename_i q _
    split
    · exact .refl s
    · rename_i e rest head
      have applied := State.applyContribution_tagsTouched (hs.staged_not_free (p := q) (e := e) (by simp [head]))
      rw [State.serve_eq]
      exact ((applied.trans (State.sameTags_leaveFifo _ q e rest)).trans
        (State.sameTags_of_behindPorts (State.sameBehindPorts_drainDone _ q))).trans (State.sameTags_pointAt _ _)

end Sys2Proof.Machine

/-! SUPPORT. Drops, the start of a close and the outcomes of an attempt (R89 to R93, R110), and what they do to the
interval tags. -/

namespace Sys2Proof.Machine

variable {s t : State} {p : PortId} {u : TallyId} {g : GroupId} {c : Cause}

/-! ## Dropped records, and the start of a close -/

/-- The `k` oldest records of a ring are gone and their cells are free (R104, R110). -/
def State.dropped (s : State) (g : GroupId) (k : Nat) : State :=
  { s.setRing g ((s.ring g).drop k) with freeCells := s.freeCells + cellsHeld ((s.ring g).take k) }

/-- SNAPSHOT_LOST of the `k` oldest records of a ring, to the readers of each (R111). -/
def State.lostNotices (s : State) (g : GroupId) (k : Nat) : List Posting :=
  ((s.ring g).take k).flatMap fun r => r.readers.map fun q => (q, .snapshotLost, .group g, .interval r.interval)

section
variable (s g) (k : Nat) (h : GroupId)
@[simp] theorem State.tally_dropped : (s.dropped g k).tally u = s.tally u := rfl
@[simp] theorem State.port_dropped : (s.dropped g k).port p = s.port p := rfl
@[simp] theorem State.group_dropped : (s.dropped g k).group h = s.group h := rfl
theorem State.ring_dropped : (s.dropped g k).ring h = if h = g then (s.ring g).drop k else s.ring h :=
  State.ring_setRing s g h _
@[simp] theorem State.freeCells_dropped :
    (s.dropped g k).freeCells = s.freeCells + cellsHeld ((s.ring g).take k) := rfl
end

/-- Postings look at no ring and at no cell. -/
theorem State.postList_store (s : State) (rings : Vector (List SnapRecord) 8) (n : Nat) (l : List Posting) :
    ({ s with rings := rings, freeCells := n } : State).postList l =
      { s.postList l with rings := rings, freeCells := n } := by
  induction l generalizing s with
  | nil => rfl
  | cons e l ih =>
    have one : ({ s with rings := rings, freeCells := n } : State).post e.1 e.2.1 e.2.2.1 e.2.2.2 =
        { s.post e.1 e.2.1 e.2.2.1 e.2.2.2 with rings := rings, freeCells := n } := by
      have port : ({ s with rings := rings, freeCells := n } : State).port e.1 = s.port e.1 := rfl
      simp only [State.post, port]
      cases (s.port e.1).session <;> rfl
    rw [State.postList_cons, one, ih]
    rfl

theorem State.dropped_postList (s : State) (l : List Posting) (g : GroupId) (k : Nat) :
    (s.postList l).dropped g k = (s.dropped g k).postList l := by
  have rings : (s.postList l).rings = s.rings := Vector.ext fun i hi => State.ring_postList s ⟨i, hi⟩ l
  have store := s.postList_store (s.rings.set g ((s.ring g).drop k)) (s.freeCells + cellsHeld ((s.ring g).take k)) l
  rw [State.dropped, State.ring_postList, State.freeCells_postList, State.setRing, rings]
  exact store.symm

/-- The drops come first and their postings after them. -/
theorem State.dropMany_eq (s : State) (g : GroupId) (k : Nat) :
    s.dropMany g k = (s.dropped g k).postList (s.lostNotices g k) := by
  induction k generalizing s with
  | zero =>
    refine (State.ext_tables (fun _ => rfl) (fun _ => rfl) (fun _ => rfl) (fun h => ?_) rfl rfl rfl rfl rfl :
      s = s.dropped g 0)
    rw [State.ring_dropped]
    split <;> simp [*]
  | succ k ih =>
    rw [State.dropMany, ih]
    cases ring : s.ring g with
    | nil =>
      have none : s.dropOldest g = s := by simp only [State.dropOldest, ring]
      simp only [none, State.dropped, State.lostNotices, ring, List.drop_nil, List.take_nil]
    | cons r rest =>
      have one : s.dropOldest g = (s.dropped g 1).postList
          (r.readers.map fun q => (q, .snapshotLost, .group g, .interval r.interval)) := by
        simp only [State.dropOldest, State.dropped, ring, State.postTo_eq, List.drop_succ_cons, List.drop_zero,
          List.take_succ_cons, List.take_zero, cellsHeld, List.map_cons, List.map_nil, List.sum_cons, List.sum_nil,
          Nat.add_zero]
      have rest_ring : (s.dropped g 1).ring g = rest := by simp [State.ring_dropped, ring]
      have both : (s.dropped g 1).dropped g k = s.dropped g (k + 1) := by
        refine State.ext_tables (fun _ => rfl) (fun _ => rfl) (fun _ => rfl) (fun h => ?_) ?_ rfl rfl rfl rfl
        · simp only [State.ring_dropped, ring]
          split <;> simp [*]
        · simp [rest_ring, ring, cellsHeld, Nat.add_assoc]
      rw [one, State.dropped_postList, both, ← State.postList_append]
      simp only [State.lostNotices, State.ring_postList, rest_ring, ring, List.take_succ_cons, List.flatMap_cons]

section
variable (s g c) (members : List TallyId) (readers : List PortId) (k : GroupId)
@[simp] theorem State.tally_startClose : (s.startClose g c members readers).tally u = s.tally u := rfl
@[simp] theorem State.port_startClose : (s.startClose g c members readers).port p = s.port p := rfl
theorem State.group_startClose : (s.startClose g c members readers).group k = if k = g then
    { s.group g with missed := 0, interval := (s.group g).interval + 1, state := .closing, walk := 0 }
    else s.group k := State.group_setGroup _ g k _
theorem State.ring_startClose : (s.startClose g c members readers).ring k =
    if k = g then s.ring g ++ [s.newRecord g c members readers] else s.ring k := State.ring_setRing s g k _
@[simp] theorem State.freeCells_startClose :
    (s.startClose g c members readers).freeCells = s.freeCells - members.length := rfl
end

/-- What an attempt makes of the group and the store once `k` drops have made room (R89, R93, R110). -/
def State.afterClose (s : State) (g : GroupId) (c : Cause) (k : Nat) : State :=
  (s.dropMany g k).startClose g c (s.membersOf g) (s.readersOf (s.membersOf g))

/-! ## The outcomes of an attempt (R89, R90) -/

/-- The group has members, and the members have readers (R88). -/
def State.observed (s : State) (g : GroupId) : Prop := s.membersOf g ≠ [] ∧ s.readersOf (s.membersOf g) ≠ []

theorem State.attemptClose_unobserved (h : ¬s.observed g) (c : Cause) : s.attemptClose g c =
    (s.unobservedClose g, .unobserved (s.group g).interval (s.membersOf g).length) := by
  have empty : ((s.membersOf g).isEmpty || (s.readersOf (s.membersOf g)).isEmpty) = true := by
    by_contra full
    simp only [Bool.or_eq_true, List.isEmpty_iff, not_or] at full
    exact h full
  simp only [State.attemptClose, empty, if_true]

section
variable (h : s.observed g)
include h

theorem State.observed.not_empty : ((s.membersOf g).isEmpty || (s.readersOf (s.membersOf g)).isEmpty) = false := by
  obtain ⟨members, readers⟩ := h
  rw [List.isEmpty_eq_false_iff.mpr members, List.isEmpty_eq_false_iff.mpr readers]
  rfl

theorem State.attemptClose_admitted {k : Nat} (admitted : s.admission g (s.membersOf g).length = .admitted k) :
    s.attemptClose g c = (s.afterClose g c k, .started (s.group g).interval (s.membersOf g).length) := by
  simp only [State.attemptClose, h.not_empty, Bool.false_eq_true, if_false, admitted,
    State.afterClose]

theorem State.attemptClose_ringFull (full : s.admission g (s.membersOf g).length = .ringFull) :
    s.attemptClose g c = (s, .ringFull) := by
  simp only [State.attemptClose, h.not_empty, Bool.false_eq_true, if_false, full]

theorem State.attemptClose_noSpace (full : s.admission g (s.membersOf g).length = .noSpace) :
    s.attemptClose g c = (s, .noSpace) := by
  simp only [State.attemptClose, h.not_empty, Bool.false_eq_true, if_false, full]

end

theorem State.mem_membersOf : u ∈ s.membersOf g ↔ (s.tally u).defined = true ∧ (s.tally u).group = g := by
  simp [State.membersOf]

theorem State.membersOf_nodup (s : State) (g : GroupId) : (s.membersOf g).Nodup := (List.nodup_finRange 256).filter _

/-! ## Tags through a close -/

theorem State.sameTags_dropMany (ready : ∀ r ∈ s.ring g, r.state = .ready) (k : Nat) :
    s.sameTags (s.dropMany g k) := by
  have none : ∀ l : List SnapRecord, (∀ r ∈ l, r.state = .ready) → outlines l = [] := fun l h =>
    List.filterMap_eq_nil_iff.mpr fun r hr => r.outline_ready (h r hr)
  have dropped : s.sameTags (s.dropped g k) := by
    refine ⟨fun _ => .refl _, fun _ => rfl, fun _ => rfl, fun h => ?_⟩
    rw [State.ring_dropped]
    split
    · subst h
      rw [none _ ready, none _ fun r hr => ready r (List.mem_of_mem_drop hr)]
    · rfl
  rw [State.dropMany_eq]
  exact dropped.trans (State.sameTags_postList _ _)

/-- The members of a new record carry the closed number, and no other tally of the group stands (R93). -/
theorem State.TagsSound.startClose (hs : s.TagsSound) (ready : ∀ r ∈ s.ring g, r.state = .ready) (c : Cause)
    (readers : List PortId) : (s.startClose g c (s.membersOf g) readers).TagsSound := by
  obtain ⟨records, others⟩ := hs
  have closed : ∀ u ∈ s.membersOf g, (s.tally u).defined = true ∧ (s.tally u).group = g ∧
      (s.tally u).tag = (s.group g).interval := by
    intro u hu
    obtain ⟨defined, group⟩ := State.mem_membersOf.mp hu
    have outside := others u defined fun r hr filling => by simp [ready r (group ▸ hr)] at filling
    exact ⟨defined, group, group ▸ outside⟩
  refine ⟨fun k r hr filling => ?_, fun u defined outside => ?_⟩
  · rw [State.ring_startClose] at hr
    split at hr
    · subst k
      obtain hr | hr := List.mem_append.mp hr
      · simp [ready r hr] at filling
      · rw [List.mem_singleton] at hr
        subst hr
        unfold State.memberSound
        rw [State.group_startClose, if_pos rfl]
        refine ⟨s.membersOf_nodup g, by simp [State.newRecord], rfl, fun i u hi => ?_⟩
        obtain ⟨defined, group, tag⟩ := closed u (List.mem_of_getElem? hi)
        have uncopied : ((s.membersOf g).map fun _ => (none : Option SnapCell))[i]? = some none := by
          rw [List.getElem?_map, show (s.membersOf g)[i]? = some u from hi]
          rfl
        exact ⟨defined, group, .inr ⟨uncopied, tag, Nat.zero_le i⟩⟩
    · rename_i other
      unfold State.memberSound
      rw [State.group_startClose, if_neg other]
      exact records k r hr filling
  · rw [State.tally_startClose] at defined outside ⊢
    rw [State.ring_startClose] at outside
    rw [State.group_startClose]
    split
    · rename_i group
      rw [if_pos group] at outside
      have entered := outside _ (List.mem_append_right _ (List.mem_singleton_self _)) rfl
      exact absurd (State.mem_membersOf.mpr ⟨defined, group⟩) entered
    · rename_i other
      rw [if_neg other] at outside
      exact others u defined outside

/-- An unobserved close sets the tags of all members to the new number (R90). -/
theorem State.TagsSound.unobservedClose (hs : s.TagsSound) (ready : ∀ r ∈ s.ring g, r.state = .ready) :
    (s.unobservedClose g).TagsSound := by
  obtain ⟨records, others⟩ := hs
  have group : ∀ k, k ≠ g → (s.unobservedClose g).group k = s.group k := fun k other => by
    simp [State.unobservedClose, other]
  have here : ((s.unobservedClose g).group g).interval = (s.group g).interval + 1 := by
    simp [State.unobservedClose]
  have tally : ∀ u, ¬((s.tally u).defined = true ∧ (s.tally u).group = g) →
      (s.unobservedClose g).tally u = s.tally u := fun u other => by
    rw [State.tally_unobservedClose, if_neg (by simpa using other)]
  refine ⟨fun k r hr filling => ?_, fun u defined outside => ?_⟩
  · have other : k ≠ g := by
      rintro rfl
      simp [ready r hr] at filling
    obtain ⟨nodup, length, number, members⟩ := records k r hr filling
    unfold State.memberSound
    rw [group k other]
    refine ⟨nodup, length, number, fun i u hi => ?_⟩
    have sound := members i u hi
    rwa [tally u (fun mine => other (sound.2.1 ▸ mine.2))]
  · by_cases member : (s.tally u).defined = true ∧ (s.tally u).group = g
    · simp [member, here]
    · rw [tally u member] at defined outside ⊢
      rw [group _ fun mine => member ⟨defined, mine⟩]
      exact others u defined outside

theorem State.TagsSound.attemptClose (hs : s.TagsSound) (ready : ∀ r ∈ s.ring g, r.state = .ready) (c : Cause) :
    (s.attemptClose g c).1.TagsSound := by
  by_cases seen : s.observed g
  · cases admission : s.admission g (s.membersOf g).length with
    | admitted k =>
      rw [State.attemptClose_admitted seen admission]
      have after := (hs.of_sameTags (State.sameTags_dropMany ready k)).startClose (g := g) (c := c)
        (readers := s.readersOf (s.membersOf g)) fun r hr => ready r (List.mem_of_mem_drop
          ((s.dropMany_droppedOnly g k).ring ▸ hr))
      rwa [State.membersOf_dropMany] at after
    | ringFull => rwa [State.attemptClose_ringFull seen admission]
    | noSpace => rwa [State.attemptClose_noSpace seen admission]
  · rw [State.attemptClose_unobserved seen]
    exact hs.unobservedClose ready

end Sys2Proof.Machine

/-! O58: interval tags agree with the groups' numbers outside a close and with the cells during one. The walk of the
copier goes past copied members alone, so that a close ends when all members carry the group's number. -/

namespace Sys2Proof.Machine

variable {s t : State} {p : PortId} {u : TallyId} {g : GroupId} {r : SnapRecord}

/-! ## The filling record of a sound ring (R105) -/

theorem State.fillingRecord_eq {old : List SnapRecord} (ring : s.ring g = old ++ [r]) (filling : r.state = .filling)
    (ready : ∀ o ∈ old, o.state = .ready) : s.fillingRecord g = some r := by
  have none : old.find? (·.state == .filling) = none := by simpa using fun o ho => by simp [ready o ho]
  simp [State.fillingRecord, ring, List.find?_append, none, filling]

/-- A FILLING record is its group's only one, and the group is CLOSING. -/
theorem State.StoreSound.of_filling (hs : s.StoreSound) (hr : r ∈ s.ring g) (filling : r.state = .filling) :
    (s.group g).state = .closing ∧ s.fillingRecord g = some r := by
  obtain ⟨⟨-, -, shape⟩, -⟩ := hs g
  cases state : (s.group g).state with
  | opened =>
    rw [state] at shape
    simp [shape r hr] at filling
  | closing =>
    rw [state] at shape
    obtain ⟨old, newest, ring, newest_filling, ready⟩ := shape
    have same : r = newest := by
      rw [ring, List.mem_append, List.mem_singleton] at hr
      refine hr.resolve_left fun h => ?_
      simp [ready r h] at filling
    exact ⟨rfl, same ▸ State.fillingRecord_eq ring newest_filling ready⟩

theorem State.StoreSound.ready_of_open (hs : s.StoreSound) (isOpen : (s.group g).state ≠ .closing) :
    ∀ r ∈ s.ring g, r.state = .ready := by
  intro r hr
  cases state : r.state with
  | ready => rfl
  | filling => exact absurd (hs.of_filling hr state).1 isOpen

/-! ## DEFINE and RETIRE -/

/-- A tally that no close waits for takes a record that is FREE or carries its group's number. -/
theorem State.TagsSound.setTally {y : Tally} (hs : s.TagsSound)
    (outsider : ∀ g, ∀ r ∈ s.ring g, r.state = .filling → u ∉ r.members)
    (current : y.defined = true → y.tag = (s.group y.group).interval) : (s.setTally u y).TagsSound := by
  obtain ⟨records, others⟩ := hs
  refine ⟨fun g r hr filling => ?_, fun v defined outside => ?_⟩
  · obtain ⟨nodup, length, number, members⟩ := records g r hr filling
    refine ⟨nodup, length, number, fun i v hi => ?_⟩
    have other : v ≠ u := by
      rintro rfl
      exact outsider g r hr filling (List.mem_of_getElem? hi)
    rw [State.tally_setTally_ne _ _ _ _ other]
    exact members i v hi
  · by_cases here : v = u
    · subst here
      rw [State.tally_setTally_self] at defined ⊢
      exact current defined
    · rw [State.tally_setTally_ne _ _ _ _ here] at defined outside ⊢
      exact others v defined outside

/-- The members of a FILLING record are defined tallies of its group. -/
theorem State.TagsSound.of_member (hs : s.TagsSound) (hr : r ∈ s.ring g) (filling : r.state = .filling)
    (member : u ∈ r.members) : (s.tally u).defined = true ∧ (s.tally u).group = g := by
  obtain ⟨-, -, -, members⟩ := hs.1 g r hr filling
  obtain ⟨i, hi⟩ := List.getElem?_of_mem member
  obtain ⟨defined, group, -⟩ := members i u hi
  exact ⟨defined, group⟩

theorem actDefine_tagsSound (hs : s.TagsSound) (tag : Byte) (pl : List Byte) :
    (actDefine s p tag pl).1.TagsSound := by
  unfold actDefine
  split
  · split
    · exact hs
    · rename_i u lowest
      have free : (s.tally u).state = .free := by simpa using List.find?_some lowest
      refine hs.setTally (fun g r hr filling member => ?_) fun _ => rfl
      have defined := (hs.of_member hr filling member).1
      simp [Tally.defined, free] at defined
  · exact hs

theorem actRetire_tagsSound (hs : s.TagsSound) (store : s.StoreSound) (tag : Byte) (pl : List Byte) :
    (actRetire s p tag pl).1.TagsSound := by
  refine State.onHandle_cases hs fun h e _ => State.asTallyAdmin_cases hs ?_
  dsimp only
  split
  · exact hs
  · rename_i isOpen
    split
    · exact hs
    · have unbound : (s.setView p h none).TagsSound := hs.of_sameTags (s.sameTags_setPort p _)
      refine unbound.setTally (fun g r hr filling member => isOpen ?_) nofun
      obtain ⟨-, group⟩ := hs.of_member hr filling member
      rw [group]
      exact (store.of_filling hr filling).1

/-! ## CLOSE and timed closes -/

theorem actClose_tagsSound (hs : s.TagsSound) (store : s.StoreSound) (tag : Byte) (pl : List Byte) :
    (actClose s p tag pl).1.TagsSound := by
  refine State.onGroup_cases hs fun g => State.asGroupAdmin_cases hs ?_
  split
  · exact hs
  · have attempt := hs.attemptClose (store.ready_of_open ‹_›) .manual
    dsimp only
    split
    · exact attempt
    · exact attempt
    · exact hs
    · exact hs

theorem State.sameTags_missClose (s : State) (g : GroupId) (why : MissedReason) : s.sameTags (s.missClose g why) := by
  have counted : s.sameTags (s.setGroup g { s.group g with missed := saturate 255 (s.group g).missed }) :=
    State.sameTags_setGroup rfl rfl
  unfold State.missClose
  dsimp only
  split
  · exact counted
  · rename_i q _
    exact counted.trans (State.sameTags_postList _ [(q, .closeMissed, .group g, .missed why)])

theorem State.TagsSound.timedAttempt (hs : s.TagsSound)
    (ready : (s.group g).state ≠ .closing → ∀ r ∈ s.ring g, r.state = .ready) : (s.timedAttempt g).TagsSound := by
  unfold State.timedAttempt
  split
  · exact hs.of_sameTags (s.sameTags_missClose g _)
  · have attempt := hs.attemptClose (ready ‹_›) .timed
    dsimp only
    split
    · exact attempt
    · exact attempt
    · exact hs.of_sameTags (s.sameTags_missClose g _)
    · exact hs.of_sameTags (s.sameTags_missClose g _)

theorem State.TagsSound.handleEdge (hs : s.TagsSound) (store : s.StoreSound) (g : GroupId) :
    (s.handleEdge g).TagsSound := by
  unfold State.handleEdge
  dsimp only
  split
  · exact hs
  · split
    · exact hs.of_sameTags (State.sameTags_setGroup rfl rfl)
    · split
      · exact hs.of_sameTags (State.sameTags_setGroup rfl rfl)
      · apply State.TagsSound.timedAttempt
        · exact hs.of_sameTags (State.sameTags_setGroup rfl rfl)
        · intro isOpen
          rw [State.group_setGroup_self] at isOpen
          exact store.ready_of_open isOpen

/-! ## The copier (R97) -/

theorem State.tag_touch (defined : (s.tally u).defined = true) :
    ((s.touch u).tally u).tag = (s.group (s.tally u).group).interval := by
  cases owed : s.owed u with
  | true => rw [State.touch_of_owed _ _ owed, State.tally_copyStep_self, Tally.startInterval_tag]
  | false =>
    rw [State.touch_of_not_owed _ _ owed]
    simpa [State.owed, defined] using owed

theorem State.mem_ring_touch {k : GroupId} {r' : SnapRecord} (hr : r' ∈ (s.touch u).ring k) :
    ∃ r ∈ s.ring k, r.state = r'.state ∧ r.members = r'.members := by
  unfold State.touch at hr
  split at hr
  · obtain ⟨r, hr, state, members, -⟩ := State.mem_ring_copyStep hr
    exact ⟨r, hr, state.symm, members.symm⟩
  · exact ⟨r', hr, rfl, rfl⟩

/-- The walk goes on where the member it was at has been copied (R97). -/
theorem State.TagsSound.walked (hs : s.TagsSound) (copied : ∀ r ∈ s.ring g, r.state = .filling → ∀ u,
    r.members[(s.group g).walk]? = some u → (s.tally u).tag = (s.group g).interval) :
    (s.setGroup g { s.group g with walk := (s.group g).walk + 1 }).TagsSound := by
  obtain ⟨records, others⟩ := hs
  have interval : ∀ k, ((s.setGroup g { s.group g with walk := (s.group g).walk + 1 }).group k).interval =
      (s.group k).interval := fun k => by
    rw [State.group_setGroup]
    split <;> simp [*]
  refine ⟨fun k r hr filling => ?_, fun u defined outside => ?_⟩
  · obtain ⟨nodup, length, number, members⟩ := records k r hr filling
    refine ⟨nodup, length, by rw [interval, number], fun i u hi => ?_⟩
    obtain ⟨defined, group, cell⟩ := members i u hi
    rw [interval]
    refine ⟨defined, group, cell.imp_right fun ⟨uncopied, tag, le⟩ => ⟨uncopied, tag, ?_⟩⟩
    rw [State.group_setGroup]
    split
    · rename_i same
      subst same
      refine Nat.succ_le_of_lt (lt_of_le_of_ne le fun here => ?_)
      have copied_tag := copied r hr filling u (here ▸ hi)
      have succ : r.interval + 1 = r.interval := number.trans (copied_tag.symm.trans tag)
      simp at succ
    · exact le
  · rw [interval]
    exact others u defined outside

theorem State.copierAct_eq (closing : (s.group g).state = .closing) (filling : s.fillingRecord g = some r)
    (next : r.members[(s.group g).walk]? = some u) :
    s.copierAct g = (s.touch u).setGroup g { s.group g with walk := (s.group g).walk + 1 } := by
  simp only [State.copierAct, closing, filling, next, State.group_touch]

theorem State.TagsSound.copierAct (hs : s.TagsSound) (store : s.StoreSound) (g : GroupId) :
    (s.copierAct g).TagsSound := by
  unfold State.copierAct
  split
  · rename_i r closing found
    split
    · exact hs
    · rename_i u next
      have hr : r ∈ s.ring g := List.mem_of_find?_eq_some found
      have filling : r.state = .filling := by simpa using List.find?_some found
      obtain ⟨defined, group⟩ := hs.of_member hr filling (List.mem_of_getElem? next)
      refine (hs.touch u).walked fun r' hr' filling' v next' => ?_
      obtain ⟨r₀, hr₀, state, members⟩ := State.mem_ring_touch hr'
      have same : r₀ = r := by
        have found' := (store.of_filling hr₀ (state.trans filling')).2
        exact Option.some.inj (found'.symm.trans found)
      rw [State.group_touch, ← members, same, next] at next'
      cases next'
      rw [State.tag_touch defined, group, State.group_touch]
  · exact hs

/-! ## The close end (R98) -/

theorem State.endClose_discarded (filling : s.fillingRecord g = some r) (discard : r.discard = true) :
    s.endClose g = (s.setGroup g { s.group g with state := .opened, walk := 0 }).removeRecords g
      (·.state == .filling) := by
  simp only [State.endClose, filling, discard, if_true]

theorem State.endClose_ready (filling : s.fillingRecord g = some r) (keep : r.discard = false) :
    s.endClose g = ((s.setGroup g { s.group g with state := .opened, walk := 0 }).setRing g
        ((s.ring g).map fun r => if r.state = .filling then { r with state := .ready } else r)).postList
      (r.readers.map fun q => (q, .snapshotReady, .group g, .interval r.interval)) := by
  simp only [State.endClose, filling, keep, Bool.false_eq_true, if_false, State.postTo_eq]
  rfl

/-- Once all members of a group's FILLING records are copied, the group can do without these records. -/
theorem State.TagsSound.closeEnded (hs : s.TagsSound) (tally : ∀ u, t.tally u = s.tally u)
    (interval : ∀ k, (t.group k).interval = (s.group k).interval) (group : ∀ k, k ≠ g → t.group k = s.group k)
    (ring : ∀ k, k ≠ g → t.ring k = s.ring k) (ready : ∀ r ∈ t.ring g, r.state = .ready)
    (copied : ∀ r ∈ s.ring g, r.state = .filling → ∀ u ∈ r.members, (s.tally u).tag = (s.group g).interval) :
    t.TagsSound := by
  obtain ⟨records, others⟩ := hs
  refine ⟨fun k r hr filling => ?_, fun u defined outside => ?_⟩
  · have other : k ≠ g := by
      rintro rfl
      simp [ready r hr] at filling
    unfold State.memberSound
    simp only [tally, group k other]
    exact records k r (ring k other ▸ hr) filling
  · rw [tally] at defined outside
    rw [tally, interval]
    by_cases here : (s.tally u).group = g
    · by_cases member : ∃ r ∈ s.ring g, r.state = .filling ∧ u ∈ r.members
      · obtain ⟨r, hr, filling, member⟩ := member
        rw [here]
        exact copied r hr filling u member
      · refine others u defined fun r hr filling hu => member ⟨r, here ▸ hr, filling, hu⟩
    · exact others u defined (ring _ here ▸ outside)

theorem State.TagsSound.endClose (hs : s.TagsSound) (store : s.StoreSound) (walked : s.walkEnded g = true) :
    (s.endClose g).TagsSound := by
  cases found : s.fillingRecord g with
  | none => simpa only [State.endClose, found] using hs
  | some r =>
    have copied : ∀ r ∈ s.ring g, r.state = .filling → ∀ u ∈ r.members, (s.tally u).tag = (s.group g).interval := by
      intro r hr filling u member
      obtain ⟨closing, found⟩ := store.of_filling hr filling
      have past : r.members.length ≤ (s.group g).walk := by simpa [State.walkEnded, closing, found] using walked
      obtain ⟨-, -, -, members⟩ := hs.1 g r hr filling
      obtain ⟨i, hi⟩ := List.getElem?_of_mem member
      obtain ⟨inside, -⟩ := List.getElem?_eq_some_iff.mp hi
      obtain ⟨-, -, ⟨-, -, tag⟩ | ⟨-, -, waits⟩⟩ := members i u hi
      · exact tag
      · omega
    have interval : ∀ k, ((s.setGroup g { s.group g with state := .opened, walk := 0 }).group k).interval =
        (s.group k).interval := fun k => by
      rw [State.group_setGroup]
      split <;> simp [*]
    cases discard : r.discard with
    | true =>
      rw [State.endClose_discarded found discard]
      refine hs.closeEnded (g := g) (fun _ => rfl) interval (fun k other => by simp [other])
        (fun k other => by simp [State.ring_removeRecords, other]) (fun r hr => ?_) copied
      simp only [State.ring_removeRecords, if_true, List.mem_filter] at hr
      cases state : r.state with
      | ready => rfl
      | filling => simp [state] at hr
    | false =>
      rw [State.endClose_ready found discard]
      refine State.TagsSound.of_sameTags ?_ (State.sameTags_postList _ _)
      refine hs.closeEnded (g := g) (fun _ => rfl) interval (fun k other => by simp [other])
        (fun k other => by simp [other]) (fun r hr => ?_) copied
      simp only [State.ring_setRing_self, List.mem_map] at hr
      obtain ⟨r', -, rfl⟩ := hr
      cases state : r'.state <;> simp [state]

/-! ## Every step -/

theorem servesAs.tagsSound {q : Req} {act : State → PortId → Byte → List Byte → Reply} (h : servesAs q act)
    (hs : s.TagsSound) (counts : s.CountsAgree) (store : s.StoreSound) (tag : Byte) (pl : List Byte) :
    (act s p tag pl).1.TagsSound := by
  obtain rfl | ⟨-, rfl⟩ | ⟨-, rfl⟩ := h
  · by_cases other : q ≠ .define ∧ q ≠ .retire ∧ q ≠ .close
    · exact hs.of_tagsTouched (actOf_tagsTouched tag pl counts other)
    · obtain rfl | rfl | rfl : q = .define ∨ q = .retire ∨ q = .close := by
        simpa only [← not_or, not_not] using other
      · exact actDefine_tagsSound hs tag pl
      · exact actRetire_tagsSound hs store tag pl
      · exact actClose_tagsSound hs store tag pl
  · exact hs.of_tagsTouched (actHelloTaken_tagsTouched tag pl)
  · exact hs.of_tagsTouched (s.tagsTouched_setPort p _)

theorem Transacted.tagsSound (h : Transacted s p t) (hs : s.TagsSound) (counts : s.CountsAgree)
    (store : s.StoreSound) : t.TagsSound := by
  cases h with
  | unheard => exact hs
  | moved y _ => exact hs.of_sameTags (s.sameTags_setPort p y)
  | taken y tag t taken examined =>
    have hs' : (s.setPort p y).TagsSound := hs.of_sameTags (s.sameTags_setPort p y)
    obtain ⟨⟨-, -, -, -, -, view, fifo, -⟩, -⟩ := taken
    have counts' : (s.setPort p y).CountsAgree := counts.of_sameHoldings (s.sameHoldings_setPort p y view fifo)
    have store' : (s.setPort p y).StoreSound := store
    cases examined with
    | refused st => exact hs'.of_sameTags (State.sameTags_respond _ p tag _)
    | answered q pl act t b _ _ serves acts =>
      have served := serves.tagsSound (p := p) hs' counts' store' tag pl
      rw [acts] at served
      exact served.of_sameTags (t.sameTags_respond p tag b)
    | waits q pl act t _ _ serves acts =>
      have served := serves.tagsSound (p := p) hs' counts' store' tag pl
      rwa [acts] at served

theorem State.TagsSound.unlessReset {f : State → State} (hs : s.TagsSound) (acts : (f s).TagsSound) :
    (s.unlessReset f).TagsSound := by
  unfold State.unlessReset
  split
  · exact hs
  · exact acts

theorem State.TagsSound.whenDue {f : State → State} (hs : s.TagsSound) (step : EndStep) (acts : (f s).TagsSound) :
    (s.whenDue p step f).TagsSound := by
  unfold State.whenDue
  split
  · exact acts
  · exact hs

theorem State.TagsSound.assertReset (s : State) : s.assertReset.TagsSound :=
  ⟨fun g r hr => by simp at hr, fun u defined => by simp [Tally.defined, Tally.cleared] at defined⟩

/-- The commands that run on no port's link keep the tags sound. -/
theorem exec_internal_tagsSound (c : Instr) (internal : transactionPort c = none) (hs : s.TagsSound)
    (counts : s.CountsAgree) (store : s.StoreSound) : ∃ t, exec c s = .next t ∧ t.TagsSound := by
  have of_same : ∀ {t}, s.sameTags t → t.TagsSound := hs.of_sameTags
  cases c
  case helloOpenSession p => exact ⟨_, rfl, hs.unlessReset (of_same (s.sameTags_openAfterEnd p))⟩
  case sessionEndViews p => exact ⟨_, rfl, hs.unlessReset (hs.whenDue _ (of_same (s.sameTags_endViews p)))⟩
  case sessionEndReaders p => exact ⟨_, rfl, hs.unlessReset (hs.whenDue _ (of_same (s.sameTags_endReaders p)))⟩
  case sessionEndTallyAdmin p =>
    exact ⟨_, rfl, hs.unlessReset (hs.whenDue _ (of_same (s.sameTags_endTallyAdmin p)))⟩
  case sessionEndGroupAdmin p =>
    exact ⟨_, rfl, hs.unlessReset (hs.whenDue _ (of_same (s.sameTags_endGroupAdmin p)))⟩
  case sessionEndEvents p => exact ⟨_, rfl, hs.unlessReset (hs.whenDue _ (of_same (s.sameTags_setPort p _)))⟩
  case post p tag pl part =>
    cases part <;> cases internal
    exact ⟨_, rfl, hs.unlessReset (of_same (s.sameTags_postNext p))⟩
  case apply => exact ⟨_, rfl, hs.unlessReset (hs.of_tagsTouched (State.applyNext_tagsTouched counts))⟩
  case tick => exact ⟨_, rfl, hs.unlessReset (of_same s.sameTags_tickEdge)⟩
  case timedCloseAttempt g => exact ⟨_, rfl, hs.unlessReset (hs.handleEdge store g)⟩
  case copierStep g => exact ⟨_, rfl, hs.unlessReset (hs.copierAct store g)⟩
  case closeEnd g =>
    refine ⟨_, rfl, hs.unlessReset ?_⟩
    split
    · exact hs.endClose store ‹_›
    · exact hs
  case prstAssert p => exact ⟨_, rfl, of_same (s.sameTags_assertPrst p)⟩
  case prstRelease p => exact ⟨_, rfl, of_same (s.sameTags_setPort p _)⟩
  case resetAssert => exact ⟨_, rfl, .assertReset s⟩
  case resetRelease => exact ⟨_, rfl, hs⟩
  all_goals cases internal

/-- Settles O58: a transaction or an internal step leaves the tags, but for copy steps, closes, and tallies that no
close waits for; the copier goes on and the close ends only past copied members. -/
theorem everyStepKeepsTagsSound : Obligations.EveryStepKeepsTagsSound := by
  intro s t counts store hs h
  unfold step at h
  split at h
  · cases h; exact hs
  · rename_i c rest _
    cases hp : transactionPort c with
    | some p =>
      obtain ⟨t', he, moved⟩ := exec_transacted c (s.setPending rest) hp
      cases h.symm.trans he
      exact moved.tagsSound hs counts store
    | none =>
      obtain ⟨t', he, sound⟩ := exec_internal_tagsSound (s := s.setPending rest) c hp hs counts store
      cases h.symm.trans he
      exact sound

end Sys2Proof.Machine

/-! O40, O42, O46, O49: the copy step, the requests that read or write one group record, and TICK. -/

namespace Sys2Proof.Machine

variable {s : State} {p : PortId} {u : TallyId} {g : GroupId} {tag : Byte}

/-! ## The copy step (R95, R107) -/

theorem Tally.valueAfterClose_eq (x : Tally) : x.valueAfterClose =
    if x.kind = .peak then none else if x.resetOnClose then some 0 else x.value := by
  cases kind : x.kind <;> simp [Tally.valueAfterClose, kind]

/-- Each record of the tally's group keeps its place, its cell of the tally written. -/
theorem State.ring_copyStep_getElem {i : Nat} {r : SnapRecord} (hr : (s.ring (s.tally u).group)[i]? = some r) :
    ((s.copyStep u).ring (s.tally u).group)[i]? = some (r.writeCell u (s.tally u).closingCell) := by
  rw [State.ring_copyStep, if_pos rfl, List.getElem?_map, hr]
  rfl

/-- Settles O40: the tally starts its group's interval, and a record of the ring is rewritten at one cell or not at
all. -/
theorem copyStepMovesTheClosingValues : Obligations.CopyStepMovesTheClosingValues := by
  intro s u
  refine ⟨?_, fun v other => by simp [other], fun k other => by rw [State.ring_copyStep, if_neg other],
    by simp [State.ring_copyStep], fun i r hr => ⟨fun kept => ?_, fun filling before after members first => ?_⟩,
    fun _ => rfl, fun _ => rfl, rfl, rfl, rfl, rfl⟩
  · rw [State.tally_copyStep_self, Tally.startInterval, Tally.valueAfterClose_eq]
  · rw [State.ring_copyStep_getElem hr, SnapRecord.writeCell_ready kept]
  · have place : r.members.idxOf u = before.length := by simp [members, List.idxOf_append_of_notMem first]
    have written : r.writeCell u (s.tally u).closingCell =
        { r with cells := r.cells.set before.length (some (s.tally u).closingCell) } := by
      rw [SnapRecord.writeCell, if_pos ⟨filling, by simp [members]⟩, place]
    rw [State.ring_copyStep_getElem hr, written]
    rfl

/-! ## The requests of one group record (R82 to R84, R101, R114) -/

theorem actClaimGroup_eq (s : State) (p : PortId) (tag : Byte) (g : GroupId) :
    actClaimGroup s p tag [byteOf g.val] =
      if (s.group g).admin.isSome then s.deny .notVacant
      else (s.setGroup g { s.group g with admin := some p }).reply .ok
        (groupByte g :: (s.group g).state.code :: intervalBytes (s.group g).interval) := by
  rw [actClaimGroup, byteAt_zero, readGroup_byteOf]
  rfl

section
variable {x : Reply}

theorem State.asGroupAdmin_admin (admin : (s.group g).admin = some p) : s.asGroupAdmin p g x = x := if_pos admin

theorem State.asGroupAdmin_other (other : (s.group g).admin ≠ some p) : s.asGroupAdmin p g x = s.deny .notAdmin :=
  if_neg other

end

theorem actSetGroup_eq (s : State) (p : PortId) (tag : Byte) (g : GroupId) {k : Nat} (range : k < 65536)
    (pol : RingPolicy) : actSetGroup s p tag (byteOf g.val :: beBytes 2 k ++ [pol.code]) =
      s.asGroupAdmin p g ((s.setGroup g { s.group g with period := k, countdown := k, policy := pol }).reply .ok
        (beBytes 2 k ++ beBytes 2 k ++ [pol.code])) := by
  have period : fieldAt (byteOf g.val :: beBytes 2 k ++ [pol.code]) 1 2 = k :=
    fieldAt_append [byteOf g.val] [pol.code] 2 k range
  have policy : byteAt (byteOf g.val :: beBytes 2 k ++ [pol.code]) 3 = pol.code := rfl
  have group : byteAt (byteOf g.val :: beBytes 2 k ++ [pol.code]) 0 = byteOf g.val := rfl
  simp only [actSetGroup, policy, readRingPolicy_code, group, readGroup_byteOf, State.onGroup, period]

/-- An answer on the state with the frame taken and one group written. -/
theorem State.onlyGroup_taken (s : State) (p : PortId) (tag : Byte) (n : Nat) (g : GroupId) (y : Group) (a : Answer) :
    s.answeredTo (((s.taken p tag n).setGroup g y).respond p tag a) p tag a.status a.payload ∧
      (((s.taken p tag n).setGroup g y).respond p tag a).group g = y ∧
      s.onlyGroup (((s.taken p tag n).setGroup g y).respond p tag a) p g := by
  refine ⟨⟨by simp, by simp⟩, by simp, ?_, fun q other => by simp [other], fun _ => rfl,
    fun k other => by simp [other], ⟨fun _ => rfl, rfl⟩, rfl, rfl, rfl⟩
  simp [Port.sameButAnswer, Port.sameEngine, Port.sameTables]

/-- Settles O42: each request is refused by its one check, or writes one group record. -/
theorem claimAndSetGroup : Obligations.ClaimAndSetGroup := by
  intro s p tag g hs
  refine ⟨fun held => ?_, fun vacant => ?_, fun k pol range => ⟨fun other => ?_, fun admin => ?_⟩⟩
  · have acts := actClaimGroup_eq (s.taken p tag (frameBits [byteOf g.val])) p tag g
    rw [State.group_taken, if_pos (Option.isSome_iff_ne_none.mpr held)] at acts
    exact exec_denies (r := .claimGroup) hs rfl acts
  · have acts := actClaimGroup_eq (s.taken p tag (frameBits [byteOf g.val])) p tag g
    rw [State.group_taken, vacant] at acts
    exact ⟨_, exec_answers (r := .claimGroup) hs rfl acts, s.onlyGroup_taken p tag _ g _ _⟩
  · have acts := fun n => actSetGroup_eq (s.taken p tag n) p tag g range pol
    exact exec_denies (r := .setGroup) hs rfl ((acts _).trans (State.asGroupAdmin_other other))
  · have acts := fun n => actSetGroup_eq (s.taken p tag n) p tag g range pol
    exact ⟨_, exec_answers (r := .setGroup) hs rfl ((acts _).trans (State.asGroupAdmin_admin admin)),
      s.onlyGroup_taken p tag _ g _ _⟩

/-- Settles O46: both reports are read off the state with the frame taken, whose groups, rings and pool are the same. -/
theorem groupStatusAndSnapListReport : Obligations.GroupStatusAndSnapListReport := by
  intro s p tag g hs
  refine ⟨exec_denies (r := .groupStatus) hs rfl ?_, exec_denies (r := .snapList) hs rfl ?_⟩
  · show actGroupStatus _ p tag _ = _
    rw [actGroupStatus, byteAt_zero, readGroup_byteOf]
    have summary : SnapRecord.summary = fun r => beBytes 4 r.interval.toNat ++ [r.state.code] := rfl
    cases admin : (s.group g).admin <;>
      simp [State.onGroup, State.reply, admin, portByte, groupByte, intervalBytes, State.membersOf, Tally.defined,
        summary]
  · show actSnapList _ p tag _ = _
    rw [actSnapList, byteAt_zero, readGroup_byteOf]
    simp [State.reply, groupByte, intervalBytes, SnapRecord.listed, boolByte]

/-! ## TICK (R85) -/

theorem Group.meetEdge_stopped {x : Group} (stopped : x.period = 0) : x.meetEdge = x := if_pos stopped

theorem Group.meetEdge_lowered {x : Group} (runs : x.period ≠ 0) (settled : x.owedEdges = 0) (more : 1 < x.countdown) :
    x.meetEdge = { x with countdown := x.countdown - 1 } := by
  rw [Group.meetEdge, if_neg runs, if_pos ⟨settled, more⟩]

theorem Group.meetEdge_owed {x : Group} (runs : x.period ≠ 0) (due : 0 < x.owedEdges ∨ x.countdown ≤ 1) :
    x.meetEdge = { x with owedEdges := x.owedEdges + 1 } := by
  rw [Group.meetEdge, if_neg runs, if_neg (by omega)]

/-- Settles O49: every group meets the edge by itself, and nothing else is written. -/
theorem tickLowersTheCountdowns : Obligations.TickLowersTheCountdowns := by
  intro s awake
  have ticks : exec .tick s = .next s.tickEdge := by
    show Host.Outcome.next (s.unlessReset _) = _
    rw [State.unlessReset, awake]
    rfl
  refine ⟨_, ticks, fun _ => rfl, ⟨fun _ => rfl, rfl⟩, ⟨rfl, rfl, rfl⟩, fun _ => rfl, fun g => ?_⟩
  rw [State.group_tickEdge]
  exact ⟨Group.meetEdge_stopped, Group.meetEdge_lowered, Group.meetEdge_owed⟩

end Sys2Proof.Machine

/-! O44, O45: the close that CLOSE starts, or makes without a record. -/

namespace Sys2Proof.Machine

variable {s t w : State} {p q : PortId} {u : TallyId} {g : GroupId} {c : Cause} {k : Nat} {r : SnapRecord} {tag : Byte}

/-! ## A close that starts (R93, R110, R111) -/

/-- A port receives SNAPSHOT_LOST once for each dropped record that it reads (R111). -/
theorem State.postedTo_lostNotices (single : ∀ r ∈ s.ring g, r.readers.Nodup) (k : Nat) (q : PortId) :
    postedTo (s.lostNotices g k) q = s.lostEvents g k q := by
  have taken : ∀ r ∈ (s.ring g).take k, r.readers.Nodup := fun r hr => single r (List.mem_of_mem_take hr)
  unfold State.lostNotices State.lostEvents
  generalize (s.ring g).take k = l at taken ⊢
  induction l with
  | nil => rfl
  | cons r l ih =>
    rw [List.flatMap_cons, postedTo_append, postedTo_map q _ (taken r (by simp)),
      ih fun r hr => taken r (List.mem_cons_of_mem _ hr), List.filterMap_cons]
    by_cases reads : q ∈ r.readers <;> simp [reads]

/-- Where nothing is sent, every event block is as it was. -/
theorem State.eventsAre_none (events : ∀ q, (t.port q).events = (s.port q).events) : s.eventsAre t fun _ => [] :=
  fun q => by simp [events, EventBlock.postAll]

theorem State.port_afterClose (s : State) (g : GroupId) (c : Cause) (k : Nat) (q : PortId) :
    (s.afterClose g c k).port q = ((s.dropped g k).postList (s.lostNotices g k)).port q := by
  rw [State.afterClose, State.port_startClose, State.dropMany_eq]

theorem State.sameButEvents_afterClose (s : State) (g : GroupId) (c : Cause) (k : Nat) (q : PortId) :
    (s.port q).sameButEvents ((s.afterClose g c k).port q) := by
  rw [State.port_afterClose]
  exact (s.dropped g k).sameButEvents_postList q _

theorem State.closeStarted_afterClose (admitted : s.admission g (s.membersOf g).length = .admitted k)
    (single : ∀ r ∈ s.ring g, r.readers.Nodup) (c : Cause) :
    s.closeStarted (s.afterClose g c k) g (s.group g) c k := by
  have dropped : ∀ h, (s.dropMany g k).ring h = if h = g then (s.ring g).drop k else s.ring h := fun h => by
    rw [State.dropMany_eq, State.ring_postList, State.ring_dropped]
  have group : ∀ h, (s.dropMany g k).group h = s.group h := fun h => by simp [State.dropMany_eq]
  have cells : (s.dropMany g k).freeCells = s.freeCells + cellsHeld ((s.ring g).take k) := by simp [State.dropMany_eq]
  obtain ⟨-, enough, -⟩ := s.admission_admitted g admitted
  refine ⟨?_, ?_, ?_, fun q => ?_, fun u => ?_, fun h other => ?_, fun h other => ?_, ?_⟩
  · simp [State.afterClose, State.ring_startClose, dropped, State.newRecord, group]
  · rw [State.afterClose, State.freeCells_startClose, cells]
    omega
  · simp [State.afterClose, State.group_startClose, group]
  · rw [State.port_afterClose, State.events_postList, State.postedTo_lostNotices single]
    rfl
  · simp [State.afterClose, State.dropMany_eq]
  · simp [State.afterClose, State.group_startClose, group, other]
  · simp [State.afterClose, State.ring_startClose, dropped, other]
  · rw [State.afterClose, State.dropMany_eq]
    exact ⟨State.pointer_postList _ _, State.resetPin_postList _ _, State.pending_postList _ _⟩

/-! ## An unobserved close (R90) -/

theorem State.closedUnobserved_unobservedClose (s : State) (g : GroupId) :
    s.closedUnobserved (s.unobservedClose g) g (s.group g) := by
  refine ⟨by simp [State.unobservedClose], fun u defined group => by simp [defined, group], fun u outside => ?_,
    State.eventsAre_none fun _ => rfl, fun h other => by simp [State.unobservedClose, other],
    ⟨fun _ => rfl, rfl⟩, rfl, rfl, rfl⟩
  rw [State.tally_unobservedClose, if_neg (by simpa using outside)]

/-! ## CLOSE (R87) -/

theorem actClose_other (other : (s.group g).admin ≠ some p) (tag : Byte) :
    actClose s p tag [byteOf g.val] = s.deny .notAdmin := by
  rw [actClose, byteAt_zero, readGroup_byteOf]
  exact State.asGroupAdmin_other other

section
variable (admin : (s.group g).admin = some p)
include admin

theorem actClose_busy (closing : (s.group g).state = .closing) (tag : Byte) :
    actClose s p tag [byteOf g.val] = s.deny .busy := by
  rw [actClose, byteAt_zero, readGroup_byteOf, State.onGroup, State.asGroupAdmin_admin admin, if_pos closing]

variable (isOpen : (s.group g).state = .opened) (tag)
include isOpen

/-- CLOSE by the administrator of an OPEN group is one attempt. -/
theorem actClose_started {n : Interval} {m : Nat} (attempt : s.attemptClose g .manual = (w, .started n m)) :
    actClose s p tag [byteOf g.val] = w.reply .accepted (intervalBytes n ++ beBytes 2 m ++ [boolByte true]) := by
  rw [actClose, byteAt_zero, readGroup_byteOf, State.onGroup, State.asGroupAdmin_admin admin, if_neg (by simp [isOpen]),
    attempt]

theorem actClose_unobserved {n : Interval} {m : Nat} (attempt : s.attemptClose g .manual = (w, .unobserved n m)) :
    actClose s p tag [byteOf g.val] = w.reply .accepted (intervalBytes n ++ beBytes 2 m ++ [boolByte false]) := by
  rw [actClose, byteAt_zero, readGroup_byteOf, State.onGroup, State.asGroupAdmin_admin admin, if_neg (by simp [isOpen]),
    attempt]

theorem actClose_ringFull (attempt : s.attemptClose g .manual = (w, .ringFull)) :
    actClose s p tag [byteOf g.val] = s.deny .ringFull := by
  rw [actClose, byteAt_zero, readGroup_byteOf, State.onGroup, State.asGroupAdmin_admin admin, if_neg (by simp [isOpen]),
    attempt]

theorem actClose_noSpace (attempt : s.attemptClose g .manual = (w, .noSpace)) :
    actClose s p tag [byteOf g.val] = s.deny .noSpace := by
  rw [actClose, byteAt_zero, readGroup_byteOf, State.onGroup, State.asGroupAdmin_admin admin, if_neg (by simp [isOpen]),
    attempt]

end

/-! ## The obligations on CLOSE -/

theorem State.observed_taken (s : State) (p : PortId) (tag : Byte) (n : Nat) (g : GroupId) :
    (s.taken p tag n).observed g ↔ s.observed g := by
  simp [State.observed]

/-- A close that starts on the state with the frame taken, and its answer. -/
theorem State.closeStarted_taken {n : Nat} {x : Group} (started : (s.taken p tag n).closeStarted w g x c k)
    (a : Answer) : s.closeStarted (w.respond p tag a) g x c k := by
  obtain ⟨ring, cells, group, events, tallies, groups, rings, rest⟩ := started
  rw [State.readersOf_taken] at ring
  exact ⟨ring, cells, group, fun q => by simpa [State.lostEvents] using events q, tallies, groups, rings, rest⟩

/-- Settles O44: the attempt on the state with the frame taken starts the close, and the answer writes the slot. -/
theorem closeStartsWhenAdmitted : Obligations.CloseStartsWhenAdmitted := by
  intro s p tag g k hs admin isOpen members readers admitted single
  have seen : ∀ n, (s.taken p tag n).observed g := fun n => (s.observed_taken p tag n g).mpr ⟨members, readers⟩
  have attempt := fun n => State.attemptClose_admitted (c := .manual) (seen n) (k := k) admitted
  have acts := fun n => actClose_started (s := s.taken p tag n) tag admin isOpen (attempt n)
  have started := (s.taken p tag (frameBits [byteOf g.val])).closeStarted_afterClose admitted single .manual
  have kept := (s.taken p tag (frameBits [byteOf g.val])).sameButEvents_afterClose g .manual k
  refine ⟨_, exec_answers (r := .close) hs rfl (acts _), ?_, State.closeStarted_taken started _, ?_, ?_, ?_,
    fun q other => ?_⟩
  · have reason := (kept p).2.2.1
    have number := (kept p).1.2.1
    simp only [State.reason_taken_self, State.number_taken] at reason number
    exact ⟨by simp [number, intervalBytes, boolByte], by simpa using reason⟩
  · simpa [Port.sameEngine] using (kept p).1
  · simpa using (kept p).2.2.2.2.1
  · simpa using (kept p).2.2.2.2.2
  · simpa [other] using kept q

theorem State.bound_iff : s.bound q u = true ↔ ∃ h e, s.viewEntry q h = some e ∧ e.tally = u := by
  simp only [State.bound, List.any_eq_true, entryNames_iff]
  constructor
  · rintro ⟨o, held, e, rfl, names⟩
    obtain ⟨i, hi, here⟩ := List.getElem_of_mem held
    exact ⟨⟨i, by simpa using hi⟩, e, by simpa [State.viewEntry] using here, names⟩
  · rintro ⟨h, e, entry, names⟩
    exact ⟨some e, by rw [← entry]; simp [State.viewEntry], e, rfl, names⟩

theorem State.mem_readersOf {l : List TallyId} : q ∈ s.readersOf l ↔
    ∃ u ∈ l, (∃ h e, s.viewEntry q h = some e ∧ e.tally = u) ∧ (s.rightsOf q u).read = true := by
  simp [State.readersOf, State.bound_iff]

theorem State.membersOf_ascend (s : State) (g : GroupId) : (s.membersOf g).Pairwise (· < ·) :=
  (List.pairwise_lt_finRange 256).filter _

/-- Settles O45: the refusals write nothing, and an unobserved close is the attempt's on the state with the frame
taken. -/
theorem closeWithoutARecord : Obligations.CloseWithoutARecord := by
  intro s p tag g hs
  refine ⟨fun other => ?_, fun admin closing => ?_, fun admin isOpen unseen => ?_, fun admin isOpen seen =>
    ⟨fun full => ?_, fun full => ?_⟩, fun u => ?_, s.membersOf_ascend g, fun q => State.mem_readersOf⟩
  · exact exec_denies (r := .close) hs rfl (actClose_other (s := s.taken p tag _) other tag)
  · exact exec_denies (r := .close) hs rfl (actClose_busy (s := s.taken p tag _) admin closing tag)
  · have unseen' : ∀ n, ¬(s.taken p tag n).observed g := fun n => (s.observed_taken p tag n g).not.mpr unseen
    have acts := fun n => actClose_unobserved (s := s.taken p tag n) tag admin isOpen
      (State.attemptClose_unobserved (unseen' n) .manual)
    obtain ⟨group, members, outside, -, groups, store, rest⟩ :=
      (s.taken p tag (frameBits [byteOf g.val])).closedUnobserved_unobservedClose g
    have port : ∀ q, ((s.taken p tag (frameBits [byteOf g.val])).unobservedClose g).port q =
        (s.taken p tag (frameBits [byteOf g.val])).port q := fun _ => rfl
    refine ⟨_, exec_answers (r := .close) hs rfl (acts _), ⟨?_, ?_⟩,
      ⟨group, members, outside, State.eventsAre_none fun q => by simp [port], groups, store, rest⟩, ?_,
      fun q other => ?_⟩
    · simp [port, intervalBytes, boolByte]
    · simp [port]
    · simp [port, Port.sameButAnswer, Port.sameEngine, Port.sameTables]
    · simp [port, other]
  · have seen' : ∀ n, (s.taken p tag n).observed g := fun n => (s.observed_taken p tag n g).mpr seen
    exact exec_denies (r := .close) hs rfl (actClose_ringFull (s := s.taken p tag _) tag admin isOpen
      (State.attemptClose_ringFull (seen' _) full))
  · have seen' : ∀ n, (s.taken p tag n).observed g := fun n => (s.observed_taken p tag n g).mpr seen
    exact exec_denies (r := .close) hs rfl (actClose_noSpace (s := s.taken p tag _) tag admin isOpen
      (State.attemptClose_noSpace (seen' _) full))
  · rw [State.mem_membersOf, Tally.defined, bne_iff_ne]

end Sys2Proof.Machine

/-! O50, O51: timed closes, the copier and the close end. -/

namespace Sys2Proof.Machine

variable {s t w : State} {p q : PortId} {u : TallyId} {g : GroupId} {c : Cause} {k : Nat} {r : SnapRecord}

/-! ## An edge that was owed (R85) -/

/-- The group record once an edge that was owed to it is taken in hand. -/
def Group.edgeTaken (x : Group) : Group := { x with owedEdges := x.owedEdges - 1 }

/-- The group record once its countdown is reloaded to its period. -/
def Group.reloaded (x : Group) : Group := { x with countdown := x.period }

/-- The part once an edge has reloaded the countdown of group `g`, its timed close still to be attempted. -/
def State.edgeDue (s : State) (g : GroupId) : State := s.setGroup g (s.group g).edgeTaken.reloaded

theorem State.group_edgeDue (s : State) (g : GroupId) : (s.edgeDue g).group g = (s.group g).edgeTaken.reloaded :=
  State.group_setGroup_self s g _

/-- The store's decision looks at no countdown and at no owed edge. -/
theorem State.admission_edgeDue (s : State) (g : GroupId) (m : Nat) :
    (s.edgeDue g).admission g m = s.admission g m := by
  unfold State.admission
  rw [State.group_edgeDue]
  rfl

theorem State.sameGroupsBut_edgeDue (same : (s.edgeDue g).sameGroupsBut t g) : s.sameGroupsBut t g :=
  fun h other => by rw [same h other, State.edgeDue, State.group_setGroup_ne _ _ _ _ other]

section
variable (awake : s.resetPin = false) (owed : 0 < (s.group g).owedEdges)
include awake owed

theorem exec_timedClose_stopped (stopped : (s.group g).period = 0) :
    exec (.timedCloseAttempt g) s = .next (s.setGroup g (s.group g).edgeTaken) := by
  show Host.Outcome.next (s.unlessReset _) = _
  simp [State.unlessReset, awake, State.handleEdge, owed.ne', stopped, Group.edgeTaken]

theorem exec_timedClose_lowered (runs : (s.group g).period ≠ 0) (more : 1 < (s.group g).countdown) :
    exec (.timedCloseAttempt g) s = .next (s.setGroup g
      { (s.group g).edgeTaken with countdown := (s.group g).countdown - 1 }) := by
  show Host.Outcome.next (s.unlessReset _) = _
  simp [State.unlessReset, awake, State.handleEdge, owed.ne', runs, more, Group.edgeTaken]

theorem exec_timedClose_due (runs : (s.group g).period ≠ 0) (due : (s.group g).countdown ≤ 1) :
    exec (.timedCloseAttempt g) s = .next ((s.edgeDue g).timedAttempt g) := by
  show Host.Outcome.next (s.unlessReset _) = _
  simp [State.unlessReset, awake, State.handleEdge, owed.ne', runs, due, Group.edgeTaken, Group.reloaded,
    State.edgeDue]

end

/-! ## The outcomes of a timed attempt (R86, R92) -/

theorem State.timedAttempt_closing (closing : (s.group g).state = .closing) :
    s.timedAttempt g = s.missClose g .closing := if_pos closing

section
variable (isOpen : (s.group g).state = .opened)
include isOpen

theorem State.timedAttempt_unobserved (unseen : ¬s.observed g) : s.timedAttempt g = s.unobservedClose g := by
  rw [State.timedAttempt, if_neg (by simp [isOpen]), State.attemptClose_unobserved unseen]

variable (seen : s.observed g)
include seen

theorem State.timedAttempt_admitted (admitted : s.admission g (s.membersOf g).length = .admitted k) :
    s.timedAttempt g = s.afterClose g .timed k := by
  rw [State.timedAttempt, if_neg (by simp [isOpen]), State.attemptClose_admitted seen admitted]

theorem State.timedAttempt_ringFull (full : s.admission g (s.membersOf g).length = .ringFull) :
    s.timedAttempt g = s.missClose g .ringFull := by
  rw [State.timedAttempt, if_neg (by simp [isOpen]), State.attemptClose_ringFull seen full]

theorem State.timedAttempt_noSpace (full : s.admission g (s.membersOf g).length = .noSpace) :
    s.timedAttempt g = s.missClose g .noSpace := by
  rw [State.timedAttempt, if_neg (by simp [isOpen]), State.attemptClose_noSpace seen full]

end

/-- A missed attempt is counted and announced to the administrator (R92). -/
theorem State.missClose_eq (s : State) (g : GroupId) (why : MissedReason) : s.missClose g why =
    (s.setGroup g { s.group g with missed := saturate 255 (s.group g).missed }).postList
      ((s.group g).admin.toList.map fun q => (q, .closeMissed, .group g, .missed why)) := by
  unfold State.missClose
  dsimp only
  cases (s.group g).admin <;> rfl

/-- From `s` to `t` a timed attempt of group `g` is missed, the group record being `y` before (R92). -/
def State.closeMissed (s t : State) (g : GroupId) (y : Group) (why : MissedReason) : Prop :=
  t.group g = { y with missed := if y.missed < 255 then y.missed + 1 else y.missed } ∧
    s.eventsAre t (fun q => if y.admin = some q then [(.closeMissed, .group g, .missed why)] else []) ∧
    (∀ q, (s.port q).sameButEvents (t.port q)) ∧ s.sameTallies t ∧ s.sameGroupsBut t g ∧ s.sameStore t ∧ s.sameRest t

theorem State.closeMissed_missClose (s : State) (g : GroupId) (y : Group) (why : MissedReason) :
    s.closeMissed ((s.setGroup g y).missClose g why) g y why := by
  rw [State.missClose_eq, State.group_setGroup_self]
  refine ⟨by simp [saturate], fun q => ?_, fun q => State.sameButEvents_postList _ q _, fun u => by simp,
    fun h other => by simp [other], ⟨fun h => by simp, by simp⟩, by simp, by simp, by simp⟩
  rw [State.events_postList, postedTo_map q _ (by cases y.admin <;> simp)]
  simp [eq_comm]

/-- Settles O50: the edge reloads the group's countdown, which no check of the attempt looks at. -/
theorem timedCloseIsMadeOrMissed : Obligations.TimedCloseIsMadeOrMissed := by
  intro s g awake owed
  refine ⟨fun stopped => ?_, fun runs more => ?_, fun runs due => ?_⟩
  · exact ⟨_, exec_timedClose_stopped awake owed stopped, by simp [Group.edgeTaken], fun h other => by simp [other],
      fun _ => rfl, fun _ => rfl, ⟨fun _ => rfl, rfl⟩, rfl, rfl, rfl⟩
  · exact ⟨_, exec_timedClose_lowered awake owed runs more, by simp [Group.edgeTaken], fun h other => by simp [other],
      fun _ => rfl, fun _ => rfl, ⟨fun _ => rfl, rfl⟩, rfl, rfl, rfl⟩
  · have acts := exec_timedClose_due awake owed runs due
    have here := s.group_edgeDue g
    have state : ((s.edgeDue g).group g).state = (s.group g).state := by rw [here]; rfl
    refine ⟨fun closing => ?_, fun isOpen unseen => ?_, fun isOpen seen => ?_⟩
    · rw [State.timedAttempt_closing (state.trans closing)] at acts
      exact ⟨_, acts, s.closeMissed_missClose g _ _⟩
    · rw [State.timedAttempt_unobserved (state.trans isOpen) unseen] at acts
      obtain ⟨group, members, outside, events, groups, store, rest⟩ := (s.edgeDue g).closedUnobserved_unobservedClose g
      rw [here] at group members
      exact ⟨_, acts, ⟨group, members, outside, events, State.sameGroupsBut_edgeDue groups, store, rest⟩,
        fun q => .refl _⟩
    · have seen' : (s.edgeDue g).observed g := seen
      have decision := s.admission_edgeDue g (s.membersOf g).length
      refine ⟨fun full => ?_, fun full => ?_, fun k admitted single => ?_⟩
      · rw [State.timedAttempt_ringFull (state.trans isOpen) seen' (decision.trans full)] at acts
        exact ⟨_, acts, s.closeMissed_missClose g _ _⟩
      · rw [State.timedAttempt_noSpace (state.trans isOpen) seen' (decision.trans full)] at acts
        exact ⟨_, acts, s.closeMissed_missClose g _ _⟩
      · have admitted' := decision.trans admitted
        rw [State.timedAttempt_admitted (state.trans isOpen) seen' admitted'] at acts
        obtain ⟨ring, cells, group, events, tallies, groups, rings, rest⟩ :=
          State.closeStarted_afterClose (s := s.edgeDue g) admitted' single .timed
        rw [here] at ring group
        exact ⟨_, acts, ⟨ring, cells, group, events, tallies, State.sameGroupsBut_edgeDue groups, rings, rest⟩,
          fun q => State.sameButEvents_afterClose _ g .timed k q⟩

/-! ## The copier and the close end (R97, R98) -/

theorem exec_copierStep_eq (awake : s.resetPin = false) (g : GroupId) :
    exec (.copierStep g) s = .next (s.copierAct g) := by
  show Host.Outcome.next (s.unlessReset _) = _
  rw [State.unlessReset, awake]
  rfl

theorem exec_closeEnd_eq (awake : s.resetPin = false) (g : GroupId) :
    exec (.closeEnd g) s = .next (if s.walkEnded g then s.endClose g else s) := by
  show Host.Outcome.next (s.unlessReset _) = _
  rw [State.unlessReset, awake]
  rfl

theorem State.walkEnded_eq (closing : (s.group g).state = .closing) (filling : s.fillingRecord g = some r) :
    s.walkEnded g = decide (r.members.length ≤ (s.group g).walk) := by
  simp only [State.walkEnded, closing, filling]

section
variable {old : List SnapRecord} (filling : r.state = .filling) (ready : ∀ o ∈ old, o.state = .ready)
include filling ready

theorem filter_not_filling : (old ++ [r]).filter (fun o => !(o.state == .filling)) = old := by
  have kept : old.filter (fun o => !(o.state == .filling)) = old :=
    List.filter_eq_self.mpr fun o ho => by simp [ready o ho]
  simp [kept, filling]

theorem filter_filling : (old ++ [r]).filter (·.state == .filling) = [r] := by
  have none : old.filter (·.state == .filling) = [] := List.filter_eq_nil_iff.mpr fun o ho => by simp [ready o ho]
  simp [none, filling]

theorem map_made_ready : (old ++ [r]).map (fun o => if o.state = .filling then { o with state := .ready } else o) =
    old ++ [{ r with state := .ready }] := by
  have kept : ∀ o ∈ old, (if o.state = .filling then { o with state := .ready } else o) = id o :=
    fun o ho => if_neg (by simp [ready o ho])
  rw [List.map_append, List.map_congr_left kept, List.map_id]
  simp [filling]

end

/-- Settles O51: the newest record is the one the copier walks along and the close end settles. -/
theorem copierWalksAndEndsTheClose : Obligations.CopierWalksAndEndsTheClose := by
  intro s g old r awake closing ring filling ready
  have found := State.fillingRecord_eq ring filling ready
  have ended := State.walkEnded_eq closing found
  refine ⟨fun u next => ?_, fun past => ?_, fun short => ?_⟩
  · refine ⟨_, exec_copierStep_eq awake g, ?_⟩
    rw [State.copierAct_eq closing found next]
    refine ⟨by simp, fun h other => by simp [other], fun q => by simp, by simp, ⟨by simp, by simp, by simp⟩,
      fun owed => ?_, fun current => ?_⟩
    · rw [State.touch_of_owed _ _ owed]
      exact ⟨fun _ => rfl, fun _ => rfl⟩
    · rw [State.touch_of_not_owed _ _ current]
      exact ⟨fun _ => rfl, fun _ => rfl⟩
  · have acts := exec_closeEnd_eq awake g
    rw [ended, if_pos (decide_eq_true past)] at acts
    cases discard : r.discard with
    | true =>
      rw [State.endClose_discarded found discard] at acts
      refine ⟨_, acts, by simp, fun h other => by simp [other], fun _ => rfl,
        fun h other => by simp [State.ring_removeRecords, other], ⟨rfl, rfl, rfl⟩, fun q => .refl _,
        fun _ => ⟨?_, ?_, State.eventsAre_none fun _ => rfl⟩, nofun⟩
      · rw [State.ring_removeRecords, if_pos rfl, State.ring_setGroup, ring, filter_not_filling filling ready]
      · rw [State.freeCells_removeRecords, State.ring_setGroup, ring, filter_filling filling ready]
        simp [cellsHeld]
    | false =>
      rw [State.endClose_ready found discard] at acts
      refine ⟨_, acts, by simp, fun h other => by simp [other], fun u => by simp,
        fun h other => by simp [other], ⟨by simp, by simp, by simp⟩, fun q => State.sameButEvents_postList _ q _,
        nofun, fun _ single => ⟨?_, by simp, fun q => ?_⟩⟩
      · rw [State.ring_postList, State.ring_setRing_self, ring, map_made_ready filling ready, discard]
      · rw [State.events_postList, postedTo_map q _ single]
        rfl
  · rw [exec_closeEnd_eq awake, ended, if_neg (by simpa using short)]

end Sys2Proof.Machine

/-! SUPPORT. What a move does to the snapshot store: at most one ring changes, together with the free cells and the
state of its group, and in one of seven ways (R104, R105). -/

namespace Sys2Proof.Machine

variable {a : Option Req} {s t : State} {g : GroupId}

/-- The changes of one ring, with the free cells and the state of its group. -/
inductive RingChange (free : Nat) (st : GroupState) (ring : List SnapRecord) :
    Nat → GroupState → List SnapRecord → Prop
  /-- Nothing changes. -/
  | kept : RingChange free st ring free st ring
  /-- The copy step of a member writes its cell (R95). -/
  | copied (u : TallyId) (c : SnapCell) : RingChange free st ring free st (ring.map fun r => r.writeCell u c)
  /-- A port leaves reader sets (R108). -/
  | left (p : PortId) (which : SnapRecord → Bool) : RingChange free st ring (free + cellsFreedBy ring p which) st
      (ring.filterMap fun r => if which r then r.afterLeaving p else some r)
  /-- The oldest record is dropped (R110). -/
  | dropped (r : SnapRecord) (rest : List SnapRecord) (oldest : ring = r :: rest) (isOpen : st = .opened) :
      RingChange free st ring (free + r.members.length) st rest
  /-- A close starts (R93). -/
  | started (r : SnapRecord) (isOpen : st = .opened) (filling : r.state = .filling) (readers : r.readersSound)
      (place : ring.length ≠ Config.ringPlaces) (cells : r.members.length ≤ free)
      (number : ∀ o ∈ ring, o.interval ≠ r.interval) :
      RingChange free st ring (free - r.members.length) .closing (ring ++ [r])
  /-- A close ends and its record is removed (R98). -/
  | discarded (closing : st = .closing) :
      RingChange free st ring (free + cellsHeld (ring.filter (·.state == .filling))) .opened
        (ring.filter fun r => !(r.state == .filling))
  /-- A close ends and its record is READY (R98). -/
  | ready (r : SnapRecord) (closing : st = .closing) (filling : ring.find? (·.state == .filling) = some r)
      (keep : r.discard = false) : RingChange free st ring free .opened
        (ring.map fun r => if r.state = .filling then { r with state := .ready } else r)

/-- Of all rings and group states, at most those of group `g` changed, with the free cells. -/
structure State.ringChanged (s t : State) (g : GroupId) : Prop where
  ring : ∀ k, k ≠ g → t.ring k = s.ring k
  state : ∀ k, k ≠ g → (t.group k).state = (s.group k).state
  change : RingChange s.freeCells (s.group g).state (s.ring g) t.freeCells (t.group g).state (t.ring g)

/-- Rings, free cells and the groups' states are left as they were. -/
theorem State.ringChanged.of_kept (g : GroupId) (ring : ∀ k, t.ring k = s.ring k) (free : t.freeCells = s.freeCells)
    (state : ∀ k, (t.group k).state = (s.group k).state) : s.ringChanged t g :=
  ⟨fun k _ => ring k, fun k _ => state k, by rw [ring, free, state]; exact .kept⟩

/-- A write of one group record that keeps its state. -/
theorem State.ringChanged.setGroup {y : Group} (same : y.state = (s.group g).state) :
    s.ringChanged (s.setGroup g y) g :=
  .of_kept g (fun _ => rfl) rfl fun k => by rw [State.group_setGroup]; split <;> simp [*]

@[simp] theorem Group.meetEdge_state (x : Group) : x.meetEdge.state = x.state := by
  unfold Group.meetEdge
  split
  · rfl
  · split <;> rfl

theorem GroupState.opened_of_ne {st : GroupState} (h : st ≠ .closing) : st = .opened := by
  cases st
  · rfl
  · exact absurd rfl h

theorem State.closing_of_walkEnded (walked : s.walkEnded g = true) : (s.group g).state = .closing := by
  unfold State.walkEnded at walked
  split at walked
  · assumption
  · cases walked

/-- The record a close starts with has readers, none of them twice, and is not discard pending (R88, R93). -/
theorem State.newRecord_readersSound (c : Cause) (members : List TallyId) (read : s.readersOf members ≠ []) :
    (s.newRecord g c members (s.readersOf members)).readersSound :=
  have once : (s.readersOf members).Nodup := (List.nodup_finRange 4).filter _
  ⟨once, by simpa [State.newRecord] using read⟩

/-- Every move changes at most one ring, in one of the seven ways. -/
theorem Move.ringChanged (h : Move a s t) : ∃ g, s.ringChanged t g := by
  cases h
  case posted p k v d => exact ⟨0, .of_kept 0 (fun _ => by simp) (by simp) fun _ => by simp⟩
  case copied u _ =>
    refine ⟨(s.tally u).group, fun k other => ?_, fun _ _ => rfl, ?_⟩
    · rw [State.ring_copyStep, if_neg other]
    · rw [State.ring_copyStep, if_pos rfl]
      exact .copied u _
  case groupClaimed g _ | groupVacated g | groupSet g _ _ _ | edgeHandled g _ | missCounted g | walked g _ =>
    exact ⟨g, .setGroup rfl⟩
  case closedUnobserved g _ =>
    refine ⟨g, .of_kept g (fun _ => rfl) rfl fun k => ?_⟩
    rw [State.unobservedClose, State.group_setGroup]
    split <;> simp [*]
  case ticked => exact ⟨0, .of_kept 0 (fun _ => rfl) rfl fun k => by simp⟩
  case closeStarted g c isOpen read place cells number =>
    refine ⟨g, fun k other => ?_, fun k other => ?_, ?_⟩
    · rw [State.ring_startClose, if_neg other]
    · rw [State.group_startClose, if_neg other]
    · rw [State.ring_startClose, if_pos rfl, State.group_startClose, if_pos rfl]
      exact .started (s.newRecord g c (s.membersOf g) (s.readersOf (s.membersOf g)))
        (GroupState.opened_of_ne isOpen) rfl (State.newRecord_readersSound c _ read) place cells number
  case closeDiscarded g r _ _ walked =>
    refine ⟨g, fun k other => ?_, fun k other => by simp [other], ?_⟩
    · rw [State.ring_removeRecords, if_neg other]
      rfl
    · rw [State.ring_removeRecords, if_pos rfl, State.group_removeRecords, State.group_setGroup_self]
      exact .discarded (State.closing_of_walkEnded walked)
  case closeReady g r filling keep walked =>
    refine ⟨g, fun k other => by simp [other], fun k other => by simp [other], ?_⟩
    rw [State.ring_setRing_self, State.group_setRing, State.group_setGroup_self]
    exact .ready r (State.closing_of_walkEnded walked) filling keep
  case oldestDropped g r rest oldest isOpen =>
    refine ⟨g, fun k other => State.ring_setRing_ne s g k rest other, fun _ _ => rfl, ?_⟩
    have ring : ({ s.setRing g rest with freeCells := s.freeCells + r.members.length } : State).ring g = rest :=
      State.ring_setRing_self s g rest
    rw [ring]
    exact .dropped r rest oldest (GroupState.opened_of_ne isOpen)
  case readersLeft p g which =>
    refine ⟨g, fun k other => ?_, fun _ _ => rfl, ?_⟩
    · rw [State.ring_leaveReaders, if_neg other]
    · rw [State.ring_leaveReaders, if_pos rfl, State.freeCells_leaveReaders]
      exact .left p which
  all_goals exact ⟨0, .of_kept 0 (fun _ => rfl) rfl fun _ => rfl⟩

end Sys2Proof.Machine

/-! O53: the cells of the pool. Each change of a ring moves cells between that ring and the free cells. -/

namespace Sys2Proof.Machine

variable {s t : State} {p : PortId} {g : GroupId}

/-! ## The cells of a list of records -/

@[simp] theorem cellsHeld_nil : cellsHeld [] = 0 := rfl

@[simp] theorem cellsHeld_cons (r : SnapRecord) (l : List SnapRecord) :
    cellsHeld (r :: l) = r.members.length + cellsHeld l := by simp [cellsHeld]

@[simp] theorem cellsHeld_append (l m : List SnapRecord) : cellsHeld (l ++ m) = cellsHeld l + cellsHeld m := by
  simp [cellsHeld]

/-- Records rewritten with their members kept hold the same cells. -/
theorem cellsHeld_map {f : SnapRecord → SnapRecord} (same : ∀ r, (f r).members = r.members) (l : List SnapRecord) :
    cellsHeld (l.map f) = cellsHeld l := by
  simp [cellsHeld, Function.comp_def, same]

/-- The records removed and the records kept hold all cells. -/
theorem cellsHeld_filter (f : SnapRecord → Bool) (l : List SnapRecord) :
    cellsHeld (l.filter f) + cellsHeld (l.filter fun r => !f r) = cellsHeld l := by
  induction l with
  | nil => rfl
  | cons r l ih => cases h : f r <;> simp [h] <;> omega

theorem SnapRecord.afterLeaving_members {r r' : SnapRecord} (h : r.afterLeaving p = some r') :
    r'.members = r.members := by
  rw [SnapRecord.afterLeaving_eq] at h
  split at h
  · cases h
  · cases h
    unfold SnapRecord.withoutReader
    split <;> rfl

/-- The cells a leaving port frees and the cells of the records that stay are all cells (R104, R108). -/
theorem cellsHeld_leave (p : PortId) (which : SnapRecord → Bool) (l : List SnapRecord) :
    cellsFreedBy l p which + cellsHeld (l.filterMap fun r => if which r then r.afterLeaving p else some r) =
      cellsHeld l := by
  unfold cellsFreedBy
  induction l with
  | nil => rfl
  | cons r l ih =>
    cases picked : which r with
    | false => simp [picked]; omega
    | true =>
      cases left : r.afterLeaving p with
      | none => simp [picked, left]; omega
      | some r' => simp [picked, left, SnapRecord.afterLeaving_members left]; omega

/-! ## One ring and the free cells -/

/-- A change of a ring keeps the sum of its cells and the free cells (R104). -/
theorem RingChange.cells {free free' : Nat} {st st' : GroupState} {ring ring' : List SnapRecord}
    (h : RingChange free st ring free' st' ring') : free' + cellsHeld ring' = free + cellsHeld ring := by
  cases h with
  | kept => rfl
  | copied u c => rw [cellsHeld_map fun r => r.writeCell_members c]
  | left p which => rw [Nat.add_assoc, cellsHeld_leave]
  | dropped r rest oldest => rw [oldest, cellsHeld_cons, Nat.add_assoc]
  | started r _ _ _ _ cells => rw [cellsHeld_append, cellsHeld_cons, cellsHeld_nil]; omega
  | discarded => rw [Nat.add_assoc, cellsHeld_filter]
  | ready => rw [cellsHeld_map fun r => by split <;> rfl]

/-- A sum over the groups of which one term changes. -/
theorem sum_groups_eq {f f' : GroupId → Nat} (g : GroupId) (h : ∀ k, k ≠ g → f k = f' k) :
    ((List.finRange 8).map f).sum + f' g = ((List.finRange 8).map f').sum + f g := by
  have others := Finset.sum_congr (rfl : Finset.univ.erase g = _) fun k hk => h k (Finset.ne_of_mem_erase hk)
  rw [← Fin.sum_univ_def, ← Fin.sum_univ_def, ← Finset.add_sum_erase _ f (Finset.mem_univ g),
    ← Finset.add_sum_erase _ f' (Finset.mem_univ g), others]
  ac_rfl

theorem State.CellsConserved.of_ringChanged (hs : s.CellsConserved) (h : s.ringChanged t g) : t.CellsConserved := by
  have here := h.change.cells
  have sum := sum_groups_eq (f := fun k => cellsHeld (t.ring k)) (f' := fun k => cellsHeld (s.ring k)) g
    fun k other => by rw [h.ring k other]
  unfold State.CellsConserved State.cellsInRings at *
  omega

theorem State.CellsConserved.assertReset (s : State) : s.assertReset.CellsConserved := by
  have held : s.assertReset.cellsInRings = 0 := by simp [State.cellsInRings]
  rw [State.CellsConserved, held]
  rfl

/-- Settles O53: each move keeps the sum of the one ring it changes and the free cells, and RESET# frees all cells. -/
theorem everyStepKeepsCellsConserved : Obligations.EveryStepKeepsCellsConserved := by
  intro s t hs h
  refine step_keeps (fun a s t moved hs => ?_) (fun s _ => .assertReset s) hs h
  obtain ⟨g, changed⟩ := moved.ringChanged
  exact hs.of_ringChanged changed

end Sys2Proof.Machine

/-! O55: the rings of the snapshot store. Each change of a ring keeps its size, its different numbers, its one FILLING
record and the reader sets (R105, R108). -/

namespace Sys2Proof.Machine

variable {s t : State} {p : PortId} {u : TallyId} {g : GroupId}

/-- A ring and its reader sets are sound. -/
def storeSound (st : GroupState) (ring : List SnapRecord) : Prop :=
  ringSound st ring ∧ ∀ r ∈ ring, r.readersSound

theorem State.storeSound_iff : s.StoreSound ↔ ∀ g, storeSound (s.group g).state (s.ring g) := Iff.rfl

/-! ## The reader sets -/

@[simp] theorem SnapRecord.writeCell_readers (r : SnapRecord) (c : SnapCell) :
    (r.writeCell u c).readers = r.readers := by
  unfold SnapRecord.writeCell; split <;> rfl

@[simp] theorem SnapRecord.writeCell_discard (r : SnapRecord) (c : SnapCell) :
    (r.writeCell u c).discard = r.discard := by
  unfold SnapRecord.writeCell; split <;> rfl

theorem SnapRecord.readersSound.writeCell {r : SnapRecord} (h : r.readersSound) (u : TallyId) (c : SnapCell) :
    (r.writeCell u c).readersSound := by
  simpa [SnapRecord.readersSound] using h

/-- What stands of a record that a port leaves has its number and its state. -/
theorem SnapRecord.afterLeaving_some {r r' : SnapRecord} (h : r.afterLeaving p = some r') :
    r'.interval = r.interval ∧ r'.state = r.state := by
  rw [SnapRecord.afterLeaving_eq] at h
  split at h
  · cases h
  · cases h
    unfold SnapRecord.withoutReader
    split <;> exact ⟨rfl, rfl⟩

/-- A FILLING record stands when a port leaves it (R108). -/
theorem SnapRecord.afterLeaving_filling {r : SnapRecord} (filling : r.state = .filling) : r.afterLeaving p ≠ none := by
  simp [SnapRecord.afterLeaving_eq, SnapRecord.freedBy, filling]

/-- A record that a port leaves keeps a reader, is removed, or is marked discard pending (R108). -/
theorem SnapRecord.readersSound.afterLeaving {r r' : SnapRecord} (h : r.readersSound)
    (stands : r.afterLeaving p = some r') : r'.readersSound := by
  obtain ⟨once, state⟩ := h
  unfold SnapRecord.afterLeaving at stands
  split at stands
  · rename_i reads
    have once' : (r.readers.filter (· ≠ p)).Nodup := once.filter _
    dsimp only at stands
    split at stands
    · rename_i others
      cases stands
      refine ⟨once', ?_⟩
      cases hst : r.state with
      | ready =>
        rw [hst] at state
        exact ⟨others, state.2⟩
      | filling =>
        rw [hst] at state
        have waited : r.discard ≠ true := fun discard => List.ne_nil_of_mem reads (state.mp discard)
        exact ⟨fun discard => absurd discard waited, fun none => absurd none others⟩
    · split at stands
      · cases stands
      · rename_i filling
        cases stands
        exact ⟨List.nodup_nil, by simp [filling]⟩
  · cases stands; exact ⟨once, state⟩

/-! ## One ring -/

/-- Records rewritten or removed one by one, numbers and states kept and no FILLING record removed, leave a ring
sound. -/
theorem ringSound.filterMap {st : GroupState} {ring : List SnapRecord} {f : SnapRecord → Option SnapRecord}
    (h : ringSound st ring) (same : ∀ r r', f r = some r' → r'.interval = r.interval ∧ r'.state = r.state)
    (stands : ∀ r, r.state = .filling → f r ≠ none) : ringSound st (ring.filterMap f) := by
  obtain ⟨places, numbers, shape⟩ := h
  have ready : ∀ l : List SnapRecord, (∀ r ∈ l, r.state = .ready) → ∀ r ∈ l.filterMap f, r.state = .ready := by
    intro l all r' hr'
    obtain ⟨r, hr, stays⟩ := List.mem_filterMap.mp hr'
    rw [(same r r' stays).2, all r hr]
  refine ⟨(List.length_filterMap_le _ _).trans places, ?_, ?_⟩
  · refine List.Pairwise.filterMap f (fun r r₂ differ r' hr r₂' hr₂ => ?_) numbers
    rw [(same r r' hr).1, (same r₂ r₂' hr₂).1]
    exact differ
  · cases st with
    | opened => exact ready ring shape
    | closing =>
      obtain ⟨old, newest, rfl, filling, all⟩ := shape
      obtain ⟨newest', stays⟩ := Option.ne_none_iff_exists'.mp (stands newest filling)
      exact ⟨old.filterMap f, newest', by simp [stays], by rw [(same _ _ stays).2, filling], ready old all⟩

/-- Records rewritten or removed one by one leave the store sound, if each that stands keeps number and state and has
sound readers, and no FILLING one is removed. -/
theorem storeSound.filterMap {st : GroupState} {ring : List SnapRecord} {f : SnapRecord → Option SnapRecord}
    (h : storeSound st ring) (same : ∀ r r', f r = some r' → r'.interval = r.interval ∧ r'.state = r.state)
    (stands : ∀ r, r.state = .filling → f r ≠ none)
    (readers : ∀ r r', f r = some r' → r.readersSound → r'.readersSound) : storeSound st (ring.filterMap f) := by
  refine ⟨h.1.filterMap same stands, fun r' hr' => ?_⟩
  obtain ⟨r, hr, stays⟩ := List.mem_filterMap.mp hr'
  exact readers r r' stays (h.2 r hr)

/-- Some records of a sound ring, all READY, are a sound ring of an OPEN group. -/
theorem storeSound.opened_sublist {st : GroupState} {ring l : List SnapRecord} (h : storeSound st ring)
    (kept : l.Sublist ring) (ready : ∀ r ∈ l, r.state = .ready) : storeSound .opened l := by
  obtain ⟨⟨places, numbers, -⟩, readers⟩ := h
  exact ⟨⟨kept.length_le.trans places, numbers.sublist kept, ready⟩, fun r hr => readers r (kept.subset hr)⟩

/-- A close that starts adds the one FILLING record (R93, R105). -/
theorem storeSound.started {ring : List SnapRecord} {r : SnapRecord} (h : storeSound .opened ring)
    (filling : r.state = .filling) (readers : r.readersSound) (place : ring.length ≠ Config.ringPlaces)
    (number : ∀ o ∈ ring, o.interval ≠ r.interval) : storeSound .closing (ring ++ [r]) := by
  obtain ⟨⟨places, numbers, ready⟩, sound⟩ := h
  refine ⟨⟨?_, ?_, ring, r, rfl, filling, ready⟩, fun o ho => ?_⟩
  · rw [List.length_append, List.length_singleton]
    omega
  · exact List.pairwise_append.mpr ⟨numbers, List.pairwise_singleton _ _, by simpa using number⟩
  · rcases List.mem_append.mp ho with old | new
    · exact sound o old
    · rwa [List.mem_singleton.mp new]

/-- A close that ends makes the newest record READY; not being discard pending, it has readers (R98, R108). -/
theorem storeSound.madeReady {old : List SnapRecord} {r : SnapRecord} (h : storeSound .closing (old ++ [r]))
    (filling : r.state = .filling) (ready : ∀ o ∈ old, o.state = .ready) (keep : r.discard = false) :
    storeSound .opened (old ++ [{ r with state := .ready }]) := by
  obtain ⟨⟨places, numbers, -⟩, sound⟩ := h
  have read : r.readers.Nodup ∧ (r.discard = true ↔ r.readers = []) := by
    simpa [SnapRecord.readersSound, filling] using sound r (by simp)
  obtain ⟨once, pending⟩ := read
  refine ⟨⟨by simpa using places, ?_, fun o ho => ?_⟩, fun o ho => ?_⟩
  · simpa [List.pairwise_append] using numbers
  · rcases List.mem_append.mp ho with ho | ho
    · exact ready o ho
    · rw [List.mem_singleton.mp ho]
  · rcases List.mem_append.mp ho with ho | ho
    · exact sound o (List.mem_append_left _ ho)
    · rw [List.mem_singleton.mp ho]
      exact ⟨once, fun none => by simp [pending.mpr none] at keep, keep⟩

/-! ## Every step -/

/-- Every change of a ring keeps it sound. -/
theorem RingChange.keeps_storeSound {free free' : Nat} {st st' : GroupState} {ring ring' : List SnapRecord}
    (h : RingChange free st ring free' st' ring') (hs : storeSound st ring) : storeSound st' ring' := by
  cases h with
  | kept => exact hs
  | copied u c =>
    rw [← List.filterMap_eq_map]
    refine hs.filterMap (fun r r' wrote => ?_) (fun _ _ => Option.some_ne_none _) fun r r' wrote sound => ?_
    · cases wrote; exact ⟨r.writeCell_interval c, r.writeCell_state c⟩
    · cases wrote; exact sound.writeCell u c
  | left p which =>
    refine hs.filterMap (fun r r' stays => ?_) (fun r filling => ?_) fun r r' stays sound => ?_
    · split at stays
      · exact SnapRecord.afterLeaving_some stays
      · cases stays; exact ⟨rfl, rfl⟩
    · split
      · exact SnapRecord.afterLeaving_filling filling
      · exact Option.some_ne_none r
    · split at stays
      · exact sound.afterLeaving stays
      · cases stays; exact sound
  | dropped r _ oldest isOpen =>
    subst oldest isOpen
    obtain ⟨⟨-, -, ready⟩, -⟩ := id hs
    exact hs.opened_sublist (List.sublist_cons_self r _) fun o ho => ready o (List.mem_cons_of_mem r ho)
  | started r isOpen filling readers place _ number =>
    subst isOpen
    exact hs.started filling readers place number
  | discarded closing =>
    subst closing
    obtain ⟨⟨-, -, old, r, rfl, filling, ready⟩, -⟩ := id hs
    rw [filter_not_filling filling ready]
    exact hs.opened_sublist (List.sublist_append_left old [r]) ready
  | ready r closing found keep =>
    subst closing
    obtain ⟨⟨-, -, old, newest, rfl, filling, ready⟩, -⟩ := id hs
    have none : old.find? (·.state == .filling) = none := by simpa using fun o ho => by simp [ready o ho]
    obtain rfl : newest = r := by simpa [List.find?_append, none, filling] using found
    rw [map_made_ready filling ready]
    exact hs.madeReady filling ready keep

theorem State.StoreSound.of_ringChanged (hs : s.StoreSound) (h : s.ringChanged t g) : t.StoreSound := by
  rw [State.storeSound_iff] at hs ⊢
  intro k
  by_cases here : k = g
  · subst here
    exact h.change.keeps_storeSound (hs k)
  · rw [h.ring k here, h.state k here]
    exact hs k

theorem State.StoreSound.assertReset (s : State) : s.assertReset.StoreSound := by
  intro g
  simp [ringSound, Group.atReset]

/-- Settles O55: each move changes one ring in a way that keeps it sound, and RESET# leaves the rings empty. -/
theorem everyStepKeepsStoreSound : Obligations.EveryStepKeepsStoreSound := by
  intro s t hs h
  refine step_keeps (fun a s t moved hs => ?_) (fun s _ => .assertReset s) hs h
  obtain ⟨g, changed⟩ := moved.ringChanged
  exact hs.of_ringChanged changed

end Sys2Proof.Machine

/-! O15: step 2 of a session end, ring by ring. -/

namespace Sys2Proof.Machine

variable {s : State} {p : PortId}

/-- A port leaves the reader sets of every record of some rings, in order. -/
def State.leaveRings (s : State) (p : PortId) (gs : List GroupId) : State :=
  gs.foldl (fun s g => s.leaveReaders p g fun _ => true) s

theorem State.leaveRings_cons (s : State) (p : PortId) (g : GroupId) (gs : List GroupId) :
    s.leaveRings p (g :: gs) = (s.leaveReaders p g fun _ => true).leaveRings p gs := rfl

/-- Leaving reader sets moves the rings and the free cells alone. -/
theorem State.leaveRings_rest (s : State) (p : PortId) (gs : List GroupId) :
    (∀ q, (s.leaveRings p gs).port q = s.port q) ∧ s.sameTallies (s.leaveRings p gs) ∧
      s.sameGroups (s.leaveRings p gs) ∧ s.sameRest (s.leaveRings p gs) := by
  induction gs generalizing s with
  | nil => exact ⟨fun _ => rfl, fun _ => rfl, fun _ => rfl, rfl, rfl, rfl⟩
  | cons g gs ih => exact ih (s.leaveReaders p g fun _ => true)

/-- Each of the rings that are left loses the records that are freed, and no other ring changes (R108). -/
theorem State.ring_leaveRings {gs : List GroupId} (once : gs.Nodup) (k : GroupId) : (s.leaveRings p gs).ring k =
    if k ∈ gs then (s.ring k).filterMap fun r => r.afterLeaving p else s.ring k := by
  induction gs generalizing s with
  | nil => rfl
  | cons g gs ih =>
    obtain ⟨first, once⟩ := List.nodup_cons.mp once
    rw [State.leaveRings_cons, ih once, State.ring_leaveReaders]
    by_cases here : k = g
    · subst here; simp [first]
    · simp [here]

/-- The free cells gain what each of the rings frees (R104, R108). -/
theorem State.freeCells_leaveRings {gs : List GroupId} (once : gs.Nodup) : (s.leaveRings p gs).freeCells =
    s.freeCells + (gs.map fun g => cellsFreedBy (s.ring g) p fun _ => true).sum := by
  induction gs generalizing s with
  | nil => rfl
  | cons g gs ih =>
    obtain ⟨first, once⟩ := List.nodup_cons.mp once
    have others : ∀ k ∈ gs, (s.leaveReaders p g fun _ => true).ring k = s.ring k := fun k hk => by
      have other : k ≠ g := fun here => first (here ▸ hk)
      rw [State.ring_leaveReaders, if_neg other]
    rw [State.leaveRings_cons, ih once, State.freeCells_leaveReaders, List.map_cons, List.sum_cons, Nat.add_assoc,
      List.map_congr_left fun k hk => by rw [others k hk]]

theorem exec_sessionEndReaders (awake : s.resetPin = false) (idle : (s.port p).posting = none)
    (due : (s.port p).sessionEnd = some .readers) : exec (.sessionEndReaders p) s =
      .next ((s.leaveRings p (List.finRange 8)).noteStep p (some .tallyAdmin)) := by
  show Host.Outcome.next (s.unlessReset _) = _
  simp [State.unlessReset, State.whenDue, awake, idle, due, State.endReaders, State.leaveRings]

/-- Settles O15: the rings are left one after another, each once, and then the next step is noted. -/
theorem sessionEndLeavesReaderSets : Obligations.SessionEndLeavesReaderSets := by
  intro s p awake idle due
  have acts := exec_sessionEndReaders awake idle due
  obtain ⟨ports, tallies, groups, rest⟩ := s.leaveRings_rest p (List.finRange 8)
  have ring := State.ring_leaveRings (s := s) (p := p) (List.nodup_finRange 8)
  have freeCells := State.freeCells_leaveRings (s := s) (p := p) (List.nodup_finRange 8)
  generalize s.leaveRings p (List.finRange 8) = w at *
  have here : (w.noteStep p (some .tallyAdmin)).port p =
      ({ s.port p with sessionEnd := some .tallyAdmin } : Port).driveAlert := by
    rw [State.noteStep, State.port_setPort_self, ports]
  refine ⟨_, acts, fun g => (ring g).trans (if_pos (List.mem_finRange g)), freeCells, ?_⟩
  rw [here]
  refine ⟨rfl, rfl, rfl, rfl, rfl, rfl, idle, rfl, ⟨rfl, rfl, rfl⟩, fun q other => ?_, tallies, groups, rest⟩
  rw [State.noteStep, State.port_setPort_ne _ _ _ _ other, ports]

end Sys2Proof.Machine

/-! O43: the decision of the snapshot store. -/

namespace Sys2Proof.Machine

variable {ring : List SnapRecord} {free m k : Nat} {n : Interval}

/-- A record of the list carries the interval number. -/
def numbered (ring : List SnapRecord) (n : Interval) : Prop := ∃ r ∈ ring, r.interval = n

theorem any_interval_iff : ring.any (·.interval == n) = true ↔ numbered ring n := by
  simp [numbered]

/-! ## HOLD (R109) -/

theorem admitHold_ringFull (full : ring.length = 4 ∨ numbered ring n) : admitHold ring free m n = .ringFull := by
  unfold admitHold
  rcases full with full | taken
  · exact if_pos full
  · rw [if_pos (any_interval_iff.mpr taken), ite_self]

section
variable (place : ring.length ≠ Config.ringPlaces) (number : ¬numbered ring n)
include place number

theorem admitHold_noSpace (short : free < m) : admitHold ring free m n = .noSpace := by
  rw [admitHold, if_neg place, if_neg (any_interval_iff.not.mpr number), if_pos short]

theorem admitHold_admitted (enough : m ≤ free) : admitHold ring free m n = .admitted 0 := by
  rw [admitHold, if_neg place, if_neg (any_interval_iff.not.mpr number), if_neg enough.not_gt]

end

/-! ## DISCARD_OLDEST (R110) -/

theorem dropsSuffice_iff : dropsSuffice ring free m n k = true ↔
    (ring.drop k).length ≤ 3 ∧ m ≤ free + cellsHeld (ring.take k) ∧ ¬numbered (ring.drop k) n := by
  simp only [dropsSuffice, Config.ringPlaces, Bool.and_eq_true, decide_eq_true_eq, Bool.not_eq_true', and_assoc,
    Nat.lt_succ_iff, ← any_interval_iff, Bool.not_eq_true]

theorem admitDiscard_admitted (places : k ≤ ring.length) (enough : dropsSuffice ring free m n k = true)
    (least : ∀ j, j < k → dropsSuffice ring free m n j = false) : admitDiscard ring free m n = .admitted k := by
  have found : (List.range (ring.length + 1)).find? (dropsSuffice ring free m n) = some k := by
    rw [List.find?_range_eq_some]
    exact ⟨enough, List.mem_range.mpr (Nat.lt_succ_iff.mpr places), fun j hj => by simp [least j hj]⟩
  simp only [admitDiscard, found]

theorem admitDiscard_noSpace (never : ∀ k, k ≤ ring.length → dropsSuffice ring free m n k = false) :
    admitDiscard ring free m n = .noSpace := by
  have none : (List.range (ring.length + 1)).find? (dropsSuffice ring free m n) = none := by
    rw [List.find?_eq_none]
    exact fun k hk => by simp [never k (Nat.lt_succ_iff.mp (List.mem_range.mp hk))]
  simp only [admitDiscard, none]

/-- Some of a ring's records hold no more cells than all of them. -/
theorem cellsHeld_take_le (ring : List SnapRecord) (k : Nat) : cellsHeld (ring.take k) ≤ cellsHeld ring := by
  have all := cellsHeld_append (ring.take k) (ring.drop k)
  rw [List.take_append_drop] at all
  omega

/-- Settles O43: under HOLD the tests are made in order; under DISCARD_OLDEST the numbers of drops are tried from 0
up. -/
theorem admissionFollowsTheRingPolicy : Obligations.AdmissionFollowsTheRingPolicy := by
  intro s g m
  have suffice := fun k => dropsSuffice_iff (ring := s.ring g) (free := s.freeCells) (m := m)
    (n := (s.group g).interval) (k := k)
  refine ⟨fun hold places => ?_, fun discard => ?_⟩
  · have decision : s.admission g m = admitHold (s.ring g) s.freeCells m (s.group g).interval := by
      simp only [State.admission, hold]
    rw [decision]
    exact ⟨admitHold_ringFull, fun place => admitHold_noSpace place.ne, fun place => admitHold_admitted place.ne⟩
  · have decision : s.admission g m = admitDiscard (s.ring g) s.freeCells m (s.group g).interval := by
      simp only [State.admission, discard]
    rw [decision]
    refine ⟨fun k places enough least => ?_, fun never => ?_, fun _ short => ?_⟩
    · exact admitDiscard_admitted places ((suffice k).mpr enough)
        fun j hj => Bool.eq_false_iff.mpr ((suffice j).not.mpr (least j hj))
    · exact admitDiscard_noSpace fun k places => Bool.eq_false_iff.mpr ((suffice k).not.mpr (never k places))
    · refine admitDiscard_noSpace fun k _ => Bool.eq_false_iff.mpr ((suffice k).not.mpr fun enough => ?_)
      obtain ⟨-, cells, -⟩ := enough
      have most := cellsHeld_take_le (s.ring g) k
      omega

end Sys2Proof.Machine

/-! O47 and O48: the requests that name one record of a ring, READ_SNAP and RELEASE. -/

namespace Sys2Proof.Machine

variable {s : State} {p : PortId} {tag : Byte} {pl : List Byte} {g : GroupId} {n : Interval} {r : SnapRecord}
  {older newer : List SnapRecord}

/-! ## The record of a number (R105) -/

theorem State.findRecord_eq_none (absent : ∀ r ∈ s.ring g, r.interval ≠ n) : s.findRecord g n = none := by
  simpa [State.findRecord] using absent

theorem State.findRecord_eq_some (ring : s.ring g = older ++ r :: newer) (first : ∀ o ∈ older, o.interval ≠ n)
    (number : r.interval = n) : s.findRecord g n = some r := by
  have none : older.find? (·.interval == n) = none := by simpa using first
  simp [State.findRecord, ring, List.find?_append, none, number]

/-! ## The fields that name a record (R169) -/

/-- The payload names the record of interval `n` in the ring of group `g`. -/
structure recordFields (pl : List Byte) (g : GroupId) (n : Interval) : Prop where
  group : readGroup (byteAt pl 0) = some g
  number : readInterval (fieldAt pl 1 4) = n

theorem recordFields_written (g : GroupId) (n : Interval) (rest : List Byte) :
    recordFields (byteOf g.val :: beBytes 4 n.toNat ++ rest) g n := by
  have number : fieldAt (byteOf g.val :: beBytes 4 n.toNat ++ rest) 1 4 = n.toNat :=
    fieldAt_append [byteOf g.val] rest 4 n.toNat n.isLt
  exact ⟨readGroup_byteOf g, by rw [number, readInterval, BitVec.ofNat_toNat, BitVec.setWidth_eq]⟩

/-! ## The outcomes of READ_SNAP, in the order of its checks (R115) -/

section

variable (fields : recordFields pl g n) (tag : Byte)
  (range : ¬((byteAt pl 6).toNat = 0 ∨ Config.maxCellsRead < (byteAt pl 6).toNat))
include fields range

theorem actReadSnap_notHeld (absent : s.findRecord g n = none) : actReadSnap s p tag pl = s.deny .notHeld := by
  simp only [actReadSnap, fields.group, fields.number, if_neg range, absent]

variable (found : s.findRecord g n = some r)
include found

theorem actReadSnap_notReady (filling : r.state = .filling) : actReadSnap s p tag pl = s.deny .notReady := by
  simp only [actReadSnap, fields.group, fields.number, if_neg range, found, if_pos filling]

variable (ready : r.state ≠ .filling)
include ready

theorem actReadSnap_noRight (unread : p ∉ r.readers) : actReadSnap s p tag pl = s.deny .noRight := by
  simp only [actReadSnap, fields.group, fields.number, if_neg range, found, if_neg ready, if_pos unread]

variable (reads : p ∈ r.readers)
include reads

theorem actReadSnap_badArg (past : r.members.length ≤ (byteAt pl 5).toNat) :
    actReadSnap s p tag pl = s.deny .badArg := by
  simp only [actReadSnap, fields.group, fields.number, if_neg range, found, if_neg ready, if_neg (not_not.mpr reads),
    if_pos past]

theorem actReadSnap_cells (inside : (byteAt pl 5).toNat < r.members.length) : actReadSnap s p tag pl =
    s.reply .ok (groupByte g :: intervalBytes n ++ beBytes 2 r.members.length ++
      byteOf (min (byteAt pl 6).toNat (r.members.length - (byteAt pl 5).toNat)) ::
        ((r.entries.drop (byteAt pl 5).toNat).take (byteAt pl 6).toNat).flatMap fun e => e.2.bytes e.1) := by
  simp only [actReadSnap, fields.group, fields.number, if_neg range, found, if_neg ready, if_neg (not_not.mpr reads),
    if_neg inside.not_ge]

end

/-- Where every cell is copied, the entries are the members with their cells (R107). -/
theorem SnapRecord.entries_copied {cells : List SnapCell} (copied : r.cells = cells.map some) :
    r.entries = r.members.zip cells := by
  simp [SnapRecord.entries, copied, Function.comp_def]

/-- Settles O47: the checks are those of the state with the frame taken, which holds the same rings. -/
theorem readSnapReturnsCells : Obligations.ReadSnapReturnsCells := by
  intro s p tag g n first count hs some_cells most
  have fields := recordFields_written g n [first, count]
  have range : ¬(count.toNat = 0 ∨ Config.maxCellsRead < count.toNat) := by
    unfold Config.maxCellsRead
    omega
  refine ⟨fun absent => ?_, fun older r newer ring older_differ number => ?_⟩
  · exact exec_denies (r := .readSnap) hs rfl (actReadSnap_notHeld fields tag range (State.findRecord_eq_none absent))
  · have found : ∀ k, (s.taken p tag k).findRecord g n = some r := fun _ =>
      State.findRecord_eq_some ring older_differ number
    have not_filling : r.state = .ready → r.state ≠ .filling := fun ready => by simp [ready]
    refine ⟨fun filling => ?_, fun ready unread => ?_, fun ready reads past => ?_,
      fun cells ready reads inside copied _ => ?_⟩
    · exact exec_denies (r := .readSnap) hs rfl (actReadSnap_notReady fields tag range (found _) filling)
    · exact exec_denies (r := .readSnap) hs rfl
        (actReadSnap_noRight fields tag range (found _) (not_filling ready) unread)
    · exact exec_denies (r := .readSnap) hs rfl
        (actReadSnap_badArg fields tag range (found _) (not_filling ready) reads past)
    · have acts := fun k => actReadSnap_cells fields tag range (found k) (not_filling ready) reads inside
      rw [SnapRecord.entries_copied copied] at acts
      exact exec_denies (r := .readSnap) hs rfl (acts _)

/-! ## The outcomes of RELEASE, in the order of its checks (R117) -/

section

variable (fields : recordFields pl g n) (tag : Byte)
include fields

theorem actRelease_notHeld (absent : s.findRecord g n = none) : actRelease s p tag pl = s.deny .notHeld := by
  simp only [actRelease, fields.group, fields.number, absent]

variable (found : s.findRecord g n = some r)
include found

theorem actRelease_noRight (unread : p ∉ r.readers) : actRelease s p tag pl = s.deny .noRight := by
  simp only [actRelease, fields.group, fields.number, found, if_pos unread]

theorem actRelease_left (reads : p ∈ r.readers) : actRelease s p tag pl =
    (s.leaveReaders p g (·.interval == n)).reply .ok (groupByte g :: intervalBytes n ++
      [byteOf (r.readers.filter (· ≠ p)).length, if (r.afterLeaving p).isNone then 1 else 0]) := by
  have readers : (r.withoutReader p).readers = r.readers.filter (· ≠ p) := by
    simp only [SnapRecord.withoutReader, if_pos reads]
  have freed : boolByte (r.freedBy p) = if (r.afterLeaving p).isNone then 1 else 0 := by
    rw [SnapRecord.afterLeaving_eq]
    cases r.freedBy p <;> rfl
  simp only [actRelease, fields.group, fields.number, found, if_neg (not_not.mpr reads), readers, freed]

end

/-! ## A port leaves one record (R108) -/

section

variable (ring : s.ring g = older ++ r :: newer) (others : ∀ o ∈ older ++ newer, o.interval ≠ n)
  (number : r.interval = n)
include ring others number

/-- The record's place is taken by what stands of it. -/
theorem State.ring_leaveOne : (s.leaveReaders p g (·.interval == n)).ring g =
    older ++ (r.afterLeaving p).toList ++ newer := by
  have kept : ∀ l : List SnapRecord, (∀ o ∈ l, o.interval ≠ n) →
      (l.filterMap fun o => if o.interval == n then o.afterLeaving p else some o) = l := fun l differ => by
    rw [List.filterMap_congr fun o ho => if_neg (by simpa using differ o ho), List.filterMap_some]
  have older_kept := kept older fun o ho => others o (List.mem_append_left _ ho)
  have newer_kept := kept newer fun o ho => others o (List.mem_append_right _ ho)
  rw [State.ring_leaveReaders, if_pos rfl, ring, List.filterMap_append, List.filterMap_cons, older_kept, newer_kept]
  cases left : r.afterLeaving p <;> simp [number]

/-- Its cells are freed when it is removed. -/
theorem State.freeCells_leaveOne : (s.leaveReaders p g (·.interval == n)).freeCells =
    s.freeCells + if (r.afterLeaving p).isNone then r.members.length else 0 := by
  have moved := cellsHeld_leave p (·.interval == n) (s.ring g)
  have stands := State.ring_leaveOne (p := p) ring others number
  rw [State.ring_leaveReaders, if_pos rfl] at stands
  rw [stands] at moved
  rw [State.freeCells_leaveReaders]
  rw [ring] at moved ⊢
  cases left : r.afterLeaving p with
  | none =>
    simp only [left, Option.toList_none, cellsHeld_append, cellsHeld_cons, cellsHeld_nil] at moved
    simp only [Option.isNone_none, if_true]
    omega
  | some r' =>
    simp only [left, Option.toList_some, cellsHeld_append, cellsHeld_cons, cellsHeld_nil,
      SnapRecord.afterLeaving_members left] at moved
    simp only [Option.isNone_some, Bool.false_eq_true, if_false]
    omega

end

/-- An answer on the state with the frame taken, from which the port has left reader sets of one ring. -/
theorem State.leaveReaders_taken (s : State) (p : PortId) (tag : Byte) (k : Nat) (g : GroupId)
    (which : SnapRecord → Bool) (a : Answer) :
    let t := ((s.taken p tag k).leaveReaders p g which).respond p tag a
    s.answeredTo t p tag a.status a.payload ∧ (s.port p).sameButAnswer (t.port p) ∧ s.samePortsBut t p ∧
      s.sameTallies t ∧ s.sameGroups t ∧ s.sameRingsBut t g ∧ s.sameRest t := by
  refine ⟨⟨by simp, by simp⟩, ?_, fun q other => by simp [other], fun _ => rfl, fun _ => rfl, fun h other => ?_,
    rfl, rfl, rfl⟩
  · simp [Port.sameButAnswer, Port.sameEngine, Port.sameTables]
  · rw [State.ring_respond, State.ring_leaveReaders, if_neg other, State.ring_taken]

/-- Settles O48: the one record of the number is found and left on the state with the frame taken. -/
theorem releaseLeavesTheReaderSet : Obligations.ReleaseLeavesTheReaderSet := by
  intro s p tag g n hs
  have fields := recordFields_written g n []
  rw [List.append_nil] at fields
  refine ⟨fun absent => ?_, fun older r newer ring others number => ?_⟩
  · exact exec_denies (r := .release) hs rfl (actRelease_notHeld fields tag (State.findRecord_eq_none absent))
  · have found : ∀ k, (s.taken p tag k).findRecord g n = some r := fun _ =>
      State.findRecord_eq_some ring (fun o ho => others o (List.mem_append_left _ ho)) number
    refine ⟨fun unread => ?_, fun reads => ?_⟩
    · exact exec_denies (r := .release) hs rfl (actRelease_noRight fields tag (found _) unread)
    · have acts := fun k => actRelease_left fields tag (found k) reads
      obtain ⟨answered, frame⟩ := s.leaveReaders_taken p tag (frameBits (byteOf g.val :: beBytes 4 n.toNat)) g
        (·.interval == n) ⟨.ok, _⟩
      exact ⟨_, exec_answers (r := .release) hs rfl (acts _), answered,
        State.ring_leaveOne (s := s.taken p tag _) ring others number,
        State.freeCells_leaveOne (s := s.taken p tag _) ring others number, frame⟩

end Sys2Proof.Machine

/-! O25 and O26: limits. An evaluation moves each limit by its table (R123, R124); SET_LIMIT writes one limit of one
tally, evaluated silently when it is set (R127, R129). -/

namespace Sys2Proof.Machine

variable {s : State} {p : PortId} {tag : Byte} {h : HandleId} {e : ViewEntry} {u : TallyId} {d : Side} {l : Limit}
  {v : Int}

/-! ## The tables of a limit (R123, R124) -/

@[simp] theorem Limit.trips_upper : l.trips .upper v = true ↔ l.level ≤ v := by simp [Limit.trips]

@[simp] theorem Limit.trips_lower : l.trips .lower v = true ↔ v ≤ l.level := by simp [Limit.trips]

@[simp] theorem Limit.releases_upper : l.releases .upper v = true ↔ v ≤ l.level - l.hyst := by simp [Limit.releases]

@[simp] theorem Limit.releases_lower : l.releases .lower v = true ↔ l.level + l.hyst ≤ v := by simp [Limit.releases]

/-- The four rows of a limit's table: the trip state it starts from, the condition, and what becomes of it. -/
theorem Limit.evaluate_rows (d : Side) (l : Limit) (v : Int) :
    (l.trip = .armed ∧ l.trips d v = true ∧ (l.evaluate d v).1 = { l with trip := .tripped }) ∨
    (l.trip = .armed ∧ ¬l.trips d v = true ∧ (l.evaluate d v).1 = l) ∨
    (l.trip = .tripped ∧ l.releases d v = true ∧ (l.evaluate d v).1 = { l with trip := .armed }) ∨
    (l.trip = .tripped ∧ ¬l.releases d v = true ∧ (l.evaluate d v).1 = l) := by
  unfold Limit.evaluate
  cases trip : l.trip with
  | armed => by_cases moves : l.trips d v = true <;> simp [moves]
  | tripped => by_cases moves : l.releases d v = true <;> simp [moves]

/-- The moves that two trip states of one limit, before and after an evaluation, show. -/
def movesBetween (d : Side) (old new : Option Limit) : List (EventKind × Side) :=
  match old, new with
  | some a, some b =>
    if a.trip = .armed ∧ b.trip = .tripped then [(.limitReached, d)]
    else if a.trip = .tripped ∧ b.trip = .armed then [(.limitCleared, d)] else []
  | _, _ => []

/-- The events of an evaluation are those its moves name. -/
theorem Limit.moves_eq_movesBetween (d : Side) (o : Option Limit) (v : Int) :
    Limit.moves d o v = movesBetween d o (o.map fun l => (l.evaluate d v).1) := by
  cases o with
  | none => rfl
  | some l =>
    simp only [Limit.moves, movesBetween, Option.map_some, Limit.evaluate]
    cases trip : l.trip with
    | armed => by_cases moves : l.trips d v = true <;> simp [moves, trip]
    | tripped => by_cases moves : l.releases d v = true <;> simp [moves, trip]

/-! ## An evaluation with events (R125, R128) -/

theorem Tally.limitMoves_eq_movesBetween {x : Tally} (value : x.value = some v) :
    x.limitMoves = movesBetween .upper x.upper x.evaluate.upper ++ movesBetween .lower x.lower x.evaluate.lower := by
  simp only [Tally.limitMoves, Tally.evaluate_upper, Tally.evaluate_lower, value, Limit.moves_eq_movesBetween]

/-- An evaluation moves nothing of a record but its limits. -/
theorem Tally.evaluate_limits (x : Tally) :
    x.evaluate = { x with upper := x.evaluate.upper, lower := x.evaluate.lower } := by
  unfold Tally.evaluate
  split <;> rfl

theorem State.tally_evaluateWithEvents (s : State) (u : TallyId) :
    (s.evaluateWithEvents u).tally u = (s.tally u).evaluate := by simp [State.evaluateWithEvents_eq]

theorem State.eventsAre_evaluateWithEvents (s : State) (u : TallyId) :
    s.eventsAre (s.evaluateWithEvents u) (s.limitEvents u (s.tally u).limitMoves) := by
  intro q
  rw [State.evaluateWithEvents_eq, State.events_postList, postedTo_moves]
  rfl

/-- All but one record's limits and the ports' events is left by an evaluation. -/
theorem State.evaluateWithEvents_frame (s : State) (u : TallyId) :
    let t := s.evaluateWithEvents u
    (∀ q, (s.port q).sameButEvents (t.port q)) ∧ s.sameTalliesBut t u ∧ s.sameGroups t ∧ s.sameStore t ∧
      s.sameRest t := by
  dsimp only
  rw [State.evaluateWithEvents_eq]
  exact ⟨fun q => State.sameButEvents_postList _ q _, fun v other => by simp [other], fun g => by simp,
    ⟨fun g => by simp, by simp⟩, by simp, by simp, by simp⟩

/-- Settles O26: the record is evaluated row by row, and each watcher is sent the moves in order. -/
theorem evaluationFollowsTheLimitTables : Obligations.EvaluationFollowsTheLimitTables := by
  intro s u v value
  dsimp only
  have events := s.eventsAre_evaluateWithEvents u
  rw [Tally.limitMoves_eq_movesBetween value] at events
  rw [State.tally_evaluateWithEvents]
  have upper := (s.tally u).evaluate_upper
  have lower := (s.tally u).evaluate_lower
  simp only [value] at upper lower
  refine ⟨fun l present => ?_, fun absent => ?_, fun l present => ?_, fun absent => ?_, Tally.evaluate_limits _, events,
    s.evaluateWithEvents_frame u⟩
  · simpa [upper, present] using l.evaluate_rows .upper v
  · rw [upper, absent, Option.map_none]
  · simpa [lower, present] using l.evaluate_rows .lower v
  · rw [lower, absent, Option.map_none]

/-! ## SET_LIMIT (R129) -/

/-- The limit SET makes is ARMED unless the present value trips it at once (R127). -/
theorem Tally.armedLimit_of_value {x : Tally} (value : x.value = some v) (d : Side) (level : Int) (hyst : Nat) :
    x.armedLimit d level hyst =
      ⟨level, hyst, if (⟨level, hyst, .armed⟩ : Limit).trips d v then .tripped else .armed⟩ := by
  simp only [Tally.armedLimit, value, Limit.evaluate]
  split <;> rfl

/-- The fields of a SET_LIMIT payload, read back. -/
theorem limitFields_written (h : HandleId) (d : Side) (op : Byte) (minus : Bool) {m hyst : Nat} (small : m < 2 ^ 64)
    (narrow : hyst < 2 ^ 32) :
    let pl := [handleByte h, d.code, op] ++ signedBytes minus m ++ beBytes 4 hyst
    readHandle (byteAt pl 0) = some h ∧ readSide (byteAt pl 1) = some d ∧ byteAt pl 2 = op ∧
      readSigned (byteAt pl 3) (fieldAt pl 4 8) = some (signedValue minus m) ∧ fieldAt pl 12 4 = hyst := by
  refine ⟨readHandle_handleByte h, readSide_code d, rfl,
    readSigned_append (before := [handleByte h, d.code, op]) small rfl (List.append_assoc ..), ?_⟩
  have field := fieldAt_append ([handleByte h, d.code, op] ++ signedBytes minus m) [] 4 hyst narrow
  simpa [signedBytes] using field

/-- SET_LIMIT by the administrator with every field in range. -/
theorem actSetLimit_eq (entry : s.viewEntry p h = some e) (admin : (s.tally e.tally).admin = some p) (tag : Byte)
    (d : Side) {op : Byte} {o : LimitOp} (reads : readLimitOp op = some o) (minus : Bool) {m hyst : Nat}
    (small : m < 2 ^ 64) (narrow : hyst < 2 ^ 32) :
    actSetLimit s p tag ([handleByte h, d.code, op] ++ signedBytes minus m ++ beBytes 4 hyst) =
      if (s.tally e.tally).kind = .peak then s.deny .badKind
      else match o with
        | .report => s.limitAnswer e.tally
        | .remove => (s.setTally e.tally ((s.tally e.tally).setLimit d none)).limitAnswer e.tally
        | .set =>
          if (s.tally e.tally).kind.holds (signedValue minus m) then
            (s.setTally e.tally ((s.tally e.tally).setLimit d
              (some ((s.tally e.tally).armedLimit d (signedValue minus m) hyst)))).limitAnswer e.tally
          else s.deny .badArg := by
  obtain ⟨handle, side, operation, level, hysteresis⟩ := limitFields_written h d op minus small narrow
  simp only [actSetLimit, side, operation, reads, level, handle, hysteresis]
  exact (State.onHandle_bound entry).trans (State.asTallyAdmin_admin admin)

/-- A served request that leaves the record `y` and is answered with its limits. -/
theorem exec_limitAnswer {pl : List Byte} {y : Tally} (hs : s.serves p) (ha : accepts .setLimit pl = true)
    (acts : actSetLimit (s.taken p tag (frameBits pl)) p tag pl =
      ((s.taken p tag (frameBits pl)).setTally u y).limitAnswer u) :
    ∃ t, exec (.setLimit p tag pl) s = .next t ∧
      s.answeredTo t p tag .ok (byteOf u.val :: limitBytes y.upper ++ limitBytes y.lower) ∧ t.tally u = y ∧
      s.onlyTally t p u := by
  rw [State.limitAnswer, State.tally_setTally_self] at acts
  exact ⟨_, exec_answers (r := .setLimit) hs ha acts, s.onlyTally_taken p tag _ u y _⟩

/-- Settles O25: the clauses are the branches of SET_LIMIT, read on the state with the frame taken. -/
theorem setLimitSetsRemovesReports : Obligations.SetLimitSetsRemovesReports := by
  intro s p tag h e d minus m hyst v hs entry admin small narrow
  dsimp only
  have ha : ∀ op, accepts .setLimit ([handleByte h, d.code, op] ++ signedBytes minus m ++ beBytes 4 hyst) = true :=
    fun op => by simp [accepts, payloadLength, signedBytes]
  have acts := fun (n : Nat) (op : Byte) (o : LimitOp) (reads : readLimitOp op = some o) =>
    actSetLimit_eq (s := s.taken p tag n) (s.viewEntry_taken_of entry n) admin tag d reads minus small narrow
  simp only [State.tally_taken] at acts
  refine ⟨fun peak op inRange => ?_, fun sum outside => ?_, fun sum inside value => ?_, ?_, ?_, fun sum => ?_⟩
  · obtain ⟨o, reads⟩ := readLimitOp_of_lt inRange
    exact exec_denies (r := .setLimit) hs (ha op) ((acts _ op o reads).trans (if_pos peak))
  · exact exec_denies (r := .setLimit) hs (ha 0)
      ((acts _ 0 .set rfl).trans ((if_neg sum).trans (if_neg (by simp [outside]))))
  · have made := exec_limitAnswer hs (ha 0) ((acts _ 0 .set rfl).trans ((if_neg sum).trans (if_pos inside)))
    rw [Tally.armedLimit_of_value value] at made
    exact ⟨by rintro rfl; simpa [Tally.setLimit] using made, by rintro rfl; simpa [Tally.setLimit] using made⟩
  · rintro sum rfl
    exact exec_limitAnswer hs (ha 1) ((acts _ 1 .remove rfl).trans (if_neg sum))
  · rintro sum rfl
    exact exec_limitAnswer hs (ha 1) ((acts _ 1 .remove rfl).trans (if_neg sum))
  · have unchanged := fun n => congrArg (·.limitAnswer e.tally) (State.setTally_tally (s.taken p tag n) e.tally)
    exact exec_limitAnswer hs (ha 2) ((acts _ 2 .report rfl).trans ((if_neg sum).trans (unchanged _).symm))

end Sys2Proof.Machine

/-! O52 and O56: the event blocks and ALERTn#. A move writes at most one port, and makes one of seven changes to its
session and event block; every write of a port drives its pin (R146). -/

namespace Sys2Proof.Machine

variable {a : Option Req} {s t : State} {b b' : EventBlock} {c : EventClass} {e : Event}

/-! ## What a move does to a port's session and event block -/

/-- The changes of a port's session and event block. -/
inductive BlockChange (b : EventBlock) : Session → Session → EventBlock → Prop
  /-- Neither changes. -/
  | kept (st : Session) : BlockChange b st st b
  /-- A session opens (R162). -/
  | opened : BlockChange b .offline .online b
  /-- Step 5 of a session end (R147, R164). -/
  | ended (st : Session) : BlockChange b st .offline EventBlock.empty
  /-- An event is posted (R137). -/
  | posted (k : EventKind) (v : Subject) (d : Detail) : BlockChange b .online .online (b.post k v d)
  /-- SET_MASK (R141). -/
  | masked (m : Mask) : BlockChange b .online .online { b with mask := m }
  /-- TAKE_EVENT (R143). -/
  | taken (e : Event) (b' : EventBlock) (take : b.take = some (e, b')) : BlockChange b .online .online b'
  /-- ACK_EVENT (R145). -/
  | acked (e : Event) (b' : EventBlock) (ack : b.ack = some (e, b')) : BlockChange b .online .online b'

/-- The ports are left as they were, or one of them is written. -/
inductive State.PortWritten (s t : State) : Prop
  | none (ports : ∀ q, t.port q = s.port q)
  | one (p : PortId) (y : Port) (ports : ∀ q, t.port q = (s.setPort p y).port q)
      (change : BlockChange (s.port p).events (s.port p).session y.session y.events)

/-- A write of one port that leaves its session and its event block. -/
theorem State.PortWritten.of_kept (p : PortId) (y : Port) (ports : ∀ q, t.port q = (s.setPort p y).port q)
    (session : y.session = (s.port p).session) (events : y.events = (s.port p).events) : s.PortWritten t :=
  .one p y ports (by rw [session, events]; exact .kept _)

/-- A new event block of an ONLINE port. -/
theorem State.PortWritten.setEvents (p : PortId) (online : (s.port p).session = .online)
    (change : BlockChange (s.port p).events .online .online b') : s.PortWritten (s.setEvents p b') :=
  .one p { s.port p with events := b' } (fun _ => rfl) (by simpa only [online] using change)

theorem State.PortWritten.post (p : PortId) (k : EventKind) (v : Subject) (d : Detail) :
    s.PortWritten (s.post p k v d) := by
  cases session : (s.port p).session with
  | offline => exact .none fun q => by rw [State.post, session]
  | online =>
    have written : s.post p k v d = s.setEvents p ((s.port p).events.post k v d) := by
      rw [State.post, session]; rfl
    rw [written]
    exact .setEvents p session (.posted k v d)

/-- Every move writes at most one port, and changes its session and event block in one of the seven ways. -/
theorem Move.portWritten (h : Move a s t) : s.PortWritten t := by
  cases h
  case engine p y tables session _ => exact .of_kept p y (fun _ => rfl) session tables.2.2
  case viewsEnded p _ => exact .of_kept p _ (fun _ => rfl) rfl rfl
  case bound p _ _ _ _ _ _ _ | unbound p _ _ _ | staged p _ _ _ _ _ | unstaged p _ _ _ | retired p _ _ _ _ _ _ =>
    exact .of_kept p _ (fun _ => rfl) rfl rfl
  case sessionOpened p offline =>
    refine .one p _ (fun _ => rfl) ?_
    rw [offline]
    exact .opened
  case eventsEnded p _ => exact .one p _ (fun _ => rfl) (.ended _)
  case posted p k v d => exact .post p k v d
  case masked p m online => exact .setEvents p online (.masked m)
  case eventTaken p e b online take => exact .setEvents p online (.taken e b take)
  case eventAcked p e b online ack => exact .setEvents p online (.acked e b ack)
  all_goals exact .none fun _ => rfl

/-! ## ALERTn# (R146) -/

theorem Port.driveAlert_alertFollows (y : Port) : y.driveAlert.AlertFollows :=
  y.driveAlert.alertFollows_iff.mpr rfl

/-- The pin of a port that is written is driven, and the others are left. -/
theorem State.PortWritten.keeps_alertsFollow (h : s.PortWritten t) (hs : s.AlertsFollow) : t.AlertsFollow := by
  intro q
  cases h with
  | none ports => rw [ports]; exact hs q
  | one p y ports _ =>
    rw [ports, State.port_setPort]
    split
    · exact y.driveAlert_alertFollows
    · exact hs q

theorem State.AlertsFollow.assertReset (s : State) : s.assertReset.AlertsFollow := by
  rw [State.alertsFollow_iff]
  intro p
  rw [State.port_assertReset]
  rfl

/-- Settles O52: whatever a move makes of a port, it drives the port's pin, and RESET# releases every pin. -/
theorem everyStepKeepsAlertsFollow : Obligations.EveryStepKeepsAlertsFollow :=
  fun _ _ hs h => step_keeps (fun _ _ _ moved => moved.portWritten.keeps_alertsFollow) (fun s _ => .assertReset s) hs h

/-! ## Sound event blocks -/

theorem EventBlock.Sound.empty : EventBlock.empty.Sound := by
  simp [EventBlock.Sound, EventBlock.empty]

theorem Event.matches_iff {k : EventKind} {v : Subject} : e.matches k v = true ↔ e.kind = k ∧ e.subject = v := by
  simp [Event.matches]

/-- A merge changes neither kind nor subject, and an entry is appended only where none matches and a place is
free (R137). -/
theorem EventBlock.Sound.post (h : b.Sound) (k : EventKind) (v : Subject) (d : Detail) : (b.post k v d).Sound := by
  obtain ⟨places, different, rising⟩ := h
  unfold EventBlock.post
  split
  · refine ⟨by simpa using places, List.pairwise_map.mpr (different.imp fun {f g} differ => ?_), rising⟩
    split <;> split <;> exact differ
  · rename_i unmatched
    split
    · rename_i room
      refine ⟨by simpa using room, List.pairwise_append.mpr ⟨different, List.pairwise_singleton _ _, ?_⟩, rising⟩
      intro f hf g hg same
      obtain rfl := List.mem_singleton.mp hg
      exact unmatched (List.any_eq_true.mpr ⟨f, hf, Event.matches_iff.mpr same⟩)
    · exact ⟨places, different, rising⟩

/-- An event that is taken has a deliverable class, and what it leaves of the queue stands in its order (R143). -/
theorem EventBlock.pickClass_delivers (h : b.pickClass c = some (e, b')) :
    b.delivers c ∧ e.cls = c ∧ b'.queue.Sublist b.queue := by
  unfold EventBlock.pickClass at h
  split at h
  · rename_i delivers
    refine ⟨b.delivers_iff c |>.mpr delivers, ?_⟩
    split at h
    · cases h
      exact ⟨rfl, .refl _⟩
    · obtain ⟨f, found, taken⟩ := Option.map_eq_some_iff.mp h
      cases taken
      exact ⟨by simpa using List.find?_some found, List.eraseP_sublist⟩
  · cases h

/-- A class above that of the top of a rising stack is above the class of every event on it (R142). -/
theorem EventBlock.Sound.below_of_delivers (h : b.Sound) (delivers : b.delivers c) :
    ∀ f ∈ b.stack, f.cls.rank < c.rank := by
  obtain ⟨-, -, rising⟩ := h
  obtain ⟨-, bare | ⟨top, rest, stack, above⟩⟩ := delivers
  · simp [bare]
  · rw [stack] at rising ⊢
    obtain ⟨first, -⟩ := List.pairwise_cons.mp rising
    intro f hf
    rcases List.mem_cons.mp hf with rfl | hf
    · exact above
    · exact (first f hf).trans above

theorem EventBlock.Sound.take (h : b.Sound) (taken : b.take = some (e, b')) : b'.Sound := by
  obtain ⟨⟨f, left⟩, picked, made⟩ := Option.map_eq_some_iff.mp taken
  cases made
  obtain ⟨c, picked⟩ := EventBlock.pick_some picked
  obtain ⟨delivers, rfl, sublist⟩ := EventBlock.pickClass_delivers picked
  obtain ⟨stack, -⟩ := EventBlock.pickClass_some picked
  have below := h.below_of_delivers delivers
  obtain ⟨places, different, rising⟩ := h
  refine ⟨sublist.length_le.trans places, different.sublist sublist, ?_⟩
  rw [stack]
  exact List.pairwise_cons.mpr ⟨below, rising⟩

theorem EventBlock.Sound.ack (h : b.Sound) (acked : b.ack = some (e, b')) : b'.Sound := by
  obtain ⟨places, different, rising⟩ := h
  unfold EventBlock.ack at acked
  split at acked
  · cases acked
  · rename_i stack
    cases acked
    rw [stack] at rising
    exact ⟨places, different, rising.of_cons⟩

/-! ## Every step -/

/-- Every change keeps a block sound, and an OFFLINE port's block empty (R147). -/
theorem BlockChange.keeps_sound {st st' : Session} (h : BlockChange b st st' b')
    (hs : b.Sound ∧ (st = .offline → b = EventBlock.empty)) : b'.Sound ∧ (st' = .offline → b' = EventBlock.empty) := by
  obtain ⟨sound, offline⟩ := hs
  cases h with
  | kept => exact ⟨sound, offline⟩
  | opened => exact ⟨sound, nofun⟩
  | ended => exact ⟨.empty, fun _ => rfl⟩
  | posted k v d => exact ⟨sound.post k v d, nofun⟩
  | masked => exact ⟨sound, nofun⟩
  | taken _ _ take => exact ⟨sound.take take, nofun⟩
  | acked _ _ ack => exact ⟨sound.ack ack, nofun⟩

theorem State.PortWritten.keeps_eventsSound (h : s.PortWritten t) (hs : s.EventsSound) : t.EventsSound := by
  intro q
  cases h with
  | none ports => rw [ports]; exact hs q
  | one p y ports change =>
    rw [ports, State.port_setPort]
    split
    · exact change.keeps_sound (hs p)
    · exact hs q

theorem State.EventsSound.assertReset (s : State) : s.assertReset.EventsSound := by
  intro p
  rw [State.port_assertReset]
  exact ⟨.empty, fun _ => rfl⟩

/-- Settles O56: each of the changes keeps a block sound, and RESET# empties every block. -/
theorem everyStepKeepsEventsSound : Obligations.EveryStepKeepsEventsSound :=
  fun _ _ hs h => step_keeps (fun _ _ _ moved => moved.portWritten.keeps_eventsSound) (fun s _ => .assertReset s) hs h

end Sys2Proof.Machine

/-! O6, O17 and O18: the status byte on the link, step 5 of a session end, and postings. -/

namespace Sys2Proof.Machine

variable {s : State} {p : PortId} {cur fresh : Byte} {out n : Nat} {rises : Bool}

theorem State.sameBehindPorts_setPort (s : State) (p : PortId) (y : Port) : s.sameBehindPorts (s.setPort p y) :=
  ⟨fun _ => rfl, fun _ => rfl, ⟨fun _ => rfl, rfl⟩, rfl, rfl, rfl⟩

/-! ## STATUS (R151, R152) -/

/-- Bits clocked into a STATUS transaction: SOn and the link state alone are written (R152). -/
def State.statusClocked (s : State) (p : PortId) (so : List Bool) (link : LinkState) (rises : Bool) : State :=
  s.setPort p { s.port p with so := so, link := if rises then .idle else link }

theorem State.clockTyped_status (si : List Bool) (rises : Bool) (h : (s.port p).link = .status cur out) :
    s.clockTyped p si rises =
      s.statusClocked p ((s.port p).so ++ statusBits cur (s.port p).statusByte out si.length)
        (statusLink cur (s.port p).statusByte out si.length) rises := by
  simp only [State.clockTyped, h, State.statusClocked]

/-- Where the pin has its level, driving it again with another link state leaves the status byte (R146, R152). -/
theorem Port.statusByte_of_follows {x : Port} (follows : x.AlertFollows) (so : List Bool) (link : LinkState) :
    ({ x with so := so, link := link } : Port).driveAlert.statusByte = x.statusByte := by
  have level : x.alertLevel = x.alert := (x.alertFollows_iff.mp follows).symm
  show Port.statusByte { x with so := so, link := link, alert := x.alertLevel } = _
  rw [level]
  rfl

/-- One byte shifted out over and over, in two pieces. -/
theorem repeatBits_append_statusBits (x : Port) (n : Nat) :
    repeatBits x.statusByte 0 8 ++ statusBits x.statusByte x.statusByte 8 n = statusOut x (8 + n) := by
  simp [repeatBits, statusBits, statusOut, List.range_add]

/-- What bits wrote before on SOn and the link state is written over. -/
theorem State.statusClocked_setPort (so so' : List Bool) (link link' : LinkState) :
    (s.setPort p { s.port p with so := so', link := link' }).statusClocked p so link rises =
      s.statusClocked p so link rises := by
  rw [State.statusClocked, State.port_setPort_self, State.setPort_setPort]
  rfl

/-- STATUS from its select fall: one byte while the type byte comes in, and `n` further bits (R151, R152). -/
theorem exec_status_idle (awake : s.resetPin = false) (follows : (s.port p).AlertFollows)
    (idle : (s.port p).link = .idle) : exec (.status p n rises) s = .next (s.statusClocked p
      (statusOut (s.port p) (8 + n)) (statusLink (s.port p).statusByte (s.port p).statusByte 8 n) rises) := by
  show Host.Outcome.next (s.transact p (byteBits typeStatus ++ List.replicate n false) rises) = _
  have link : LinkState.ofType typeStatus (s.port p).statusByte (s.port p).slot.settled =
      .status (s.port p).statusByte 8 := if_pos rfl
  rw [State.transact_idle awake idle, link, State.clockTyped_status _ rises (by rw [State.port_setPort_self]; rfl),
    State.statusClocked_setPort, State.port_setPort_self, Port.statusByte_of_follows follows, Port.driveAlert_so,
    List.length_replicate, repeatBits_append_statusBits]

/-- STATUS on an open STATUS transaction: all its bits are further bits (R151, R152; log entry 7). -/
theorem exec_status_open (awake : s.resetPin = false) (opened : (s.port p).link = .status cur out) :
    exec (.status p n rises) s = .next (s.statusClocked p
      ((s.port p).so ++ statusBits cur (s.port p).statusByte out (8 + n))
      (statusLink cur (s.port p).statusByte out (8 + n)) rises) := by
  show Host.Outcome.next (s.transact p (byteBits typeStatus ++ List.replicate n false) rises) = _
  have clocked : s.transact p (byteBits typeStatus ++ List.replicate n false) rises =
      s.clock p (byteBits typeStatus ++ List.replicate n false) rises := by
    simp [State.transact, awake, opened]
  rw [clocked, State.clock_typed (by simp [opened]), State.clockTyped_status _ rises opened]
  simp

/-- The byte in hand after `n` further bits: still the one before, or a fresh one with 1 to 8 of its bits out. -/
theorem statusLink_eq (first : 1 ≤ out) (same : out + n ≤ 8 → cur = fresh) :
    ∃ o, statusLink cur fresh out n = .status fresh o ∧ 1 ≤ o ∧ o ≤ 8 ∧ o % 8 = (out + n) % 8 := by
  unfold statusLink
  split
  · rename_i within
    exact ⟨out + n, by rw [same within], by omega, within, rfl⟩
  · exact ⟨_, rfl, by omega, by omega, by omega⟩

/-- What STATUS leaves: the link state that the select and the bits give, and all else as it was. -/
theorem State.statusClocked_leaves (s : State) (p : PortId) (so : List Bool) (rises : Bool) {link : LinkState} :
    let t := s.statusClocked p so link rises
    (t.port p).so = so ∧ (t.port p).link = (if rises then .idle else link) ∧ (s.port p).sameButLink (t.port p) ∧
      s.samePortsBut t p ∧ s.sameBehindPorts t := by
  refine ⟨?_, ?_, ?_, fun q other => State.port_setPort_ne s p q _ other, s.sameBehindPorts_setPort p _⟩
  all_goals rw [State.statusClocked, State.port_setPort_self]
  · rfl
  · rfl
  · exact ⟨rfl, rfl, rfl, rfl, rfl, rfl, rfl, rfl, rfl, rfl⟩

/-- Settles O6: both forms clock bits into a STATUS transaction, whose fresh bytes are the one of the select fall
because nothing they are formed from changes. -/
theorem statusReportsAndChangesNothing : Obligations.StatusReportsAndChangesNothing := by
  intro s p n rises awake follows byte leaves
  have leaves_of : ∀ {so link out}, (∃ o, link = .status byte o ∧ 1 ≤ o ∧ o ≤ 8 ∧ o % 8 = (out + n) % 8) →
      leaves (s.statusClocked p so link rises) out := by
    intro so link out shifted
    obtain ⟨-, at_end, port, ports, behind⟩ := s.statusClocked_leaves p so rises (link := link)
    refine ⟨fun up => ?_, fun low => ?_, port, ports, behind⟩
    · rw [at_end, if_pos up]
    · rw [at_end, if_neg (by simp [low])]; exact shifted
  refine ⟨fun idle => ?_, fun cur out opened first last => ?_⟩
  · exact ⟨_, exec_status_idle awake follows idle, (s.statusClocked_leaves p _ rises).1,
      leaves_of (statusLink_eq (by omega) fun _ => rfl)⟩
  · have shifted := statusLink_eq (cur := cur) (fresh := byte) (n := 8 + n) first (by omega)
    rw [show out + (8 + n) = out + n + 8 by omega, Nat.add_mod_right] at shifted
    exact ⟨_, exec_status_open awake opened, (s.statusClocked_leaves p _ rises).1, leaves_of shifted⟩

/-! ## Step 5 of a session end (R147, R164) -/

theorem exec_sessionEndEvents (awake : s.resetPin = false) (idle : (s.port p).posting = none)
    (due : (s.port p).sessionEnd = some .events) : exec (.sessionEndEvents p) s = .next (s.endEvents p) := by
  show Host.Outcome.next (s.unlessReset _) = _
  simp [State.unlessReset, State.whenDue, awake, idle, due]

theorem Port.slotAfterEnd_leave {x : Port} {tag : Byte} (h : x.slot = .working (.leave tag)) :
    x.slotAfterEnd = .ready ⟨tag, .ok, x.number, []⟩ := by simp only [Port.slotAfterEnd, h]

theorem Port.slotAfterEnd_hello {x : Port} {tag : Byte} (h : x.slot = .working (.hello tag)) :
    x.slotAfterEnd = .working (.hello tag) := by simp only [Port.slotAfterEnd, h]

theorem Port.slotAfterEnd_portReset {x : Port} (h : x.slot = .working .portReset) : x.slotAfterEnd = .empty := by
  simp only [Port.slotAfterEnd, h]

/-- Settles O17: step 5 is one write of the port, whose pin follows the OFFLINE session. -/
theorem sessionEndEmptiesTheEventBlock : Obligations.SessionEndEmptiesTheEventBlock := by
  intro s p awake idle due
  refine ⟨_, exec_sessionEndEvents awake idle due, ?_⟩
  rw [State.endEvents, State.port_setPort_self]
  exact ⟨rfl, rfl, rfl, rfl, rfl, fun _ => Port.slotAfterEnd_leave, fun _ => Port.slotAfterEnd_hello,
    Port.slotAfterEnd_portReset, rfl, rfl, rfl, rfl, rfl, idle, fun q other => State.port_setPort_ne s p q _ other,
    s.sameBehindPorts_setPort p _⟩

/-! ## Postings (R136 to R139) -/

theorem saturate_eq {m : Nat} (range : m ≤ 255) : saturate 255 m = if m < 255 then m + 1 else 255 := by
  unfold saturate
  split <;> omega

section

variable {b : EventBlock} {k : EventKind} {u : Subject}

theorem EventBlock.any_matches_eq_false (fresh : ∀ f ∈ b.queue, ¬(f.kind = k ∧ f.subject = u)) :
    b.queue.any (·.matches k u) = false :=
  List.any_eq_false.mpr fun f hf => Event.matches_iff.not.mpr (fresh f hf)

/-- The one entry of the same kind and subject takes the posting in (R137, R138). -/
theorem EventBlock.post_merges {before after : List Event} {e : Event} (queue : b.queue = before ++ e :: after)
    (same : e.kind = k ∧ e.subject = u) (only : ∀ f ∈ before ++ after, ¬(f.kind = k ∧ f.subject = u)) (d : Detail) :
    b.post k u d = { b with queue := before ++ e.absorb d :: after } := by
  have here : e.matches k u = true := Event.matches_iff.mpr same
  have matched : b.queue.any (·.matches k u) = true := List.any_eq_true.mpr ⟨e, by simp [queue], here⟩
  have others : ∀ l : List Event, (∀ f ∈ l, f ∈ before ++ after) →
      l.map (fun f => if f.matches k u then f.absorb d else f) = l := fun l within =>
    (List.map_congr_left fun f hf => if_neg (Event.matches_iff.not.mpr (only f (within f hf)))).trans (List.map_id' l)
  rw [EventBlock.post, if_pos matched, queue, List.map_append, List.map_cons, if_pos here,
    others before fun _ => List.mem_append_left _, others after fun _ => List.mem_append_right _]

theorem EventBlock.post_appends (fresh : ∀ f ∈ b.queue, ¬(f.kind = k ∧ f.subject = u))
    (room : b.queue.length < Config.queuePlaces) (d : Detail) :
    b.post k u d = { b with queue := b.queue ++ [⟨k, u, d, 1⟩] } := by
  simp [EventBlock.post, EventBlock.any_matches_eq_false fresh, room]

theorem EventBlock.post_marks (fresh : ∀ f ∈ b.queue, ¬(f.kind = k ∧ f.subject = u))
    (full : Config.queuePlaces ≤ b.queue.length) (d : Detail) :
    b.post k u d = { b with marker := noteLost b.marker } := by
  simp [EventBlock.post, EventBlock.any_matches_eq_false fresh, full]

end

theorem State.post_offline (offline : (s.port p).session = .offline) (k : EventKind) (u : Subject) (d : Detail) :
    s.post p k u d = s := by
  rw [State.post, offline]

theorem State.events_post_online (online : (s.port p).session = .online) (k : EventKind) (u : Subject) (d : Detail) :
    ((s.post p k u d).port p).events = (s.port p).events.post k u d := by
  rw [State.port_post, if_pos ⟨rfl, online⟩]
  rfl

/-- Settles O18: the clauses are the branches of a posting to one event block. -/
theorem postingMergesAppendsOrMarks : Obligations.PostingMergesAppendsOrMarks := by
  intro s p k u d b t same
  refine ⟨fun offline => State.post_offline offline k u d, fun online => ?_, s.sameButEvents_post p p k u d,
    fun q other => ?_, ?_⟩
  · rw [State.events_post_online online]
    refine ⟨fun before e after queue here others range => ?_, fun fresh room => EventBlock.post_appends fresh room d,
      fun fresh full => ?_⟩
    · rw [EventBlock.post_merges queue here others d, Event.absorb, saturate_eq range]
    · have marked := EventBlock.post_marks fresh full d
      refine ⟨fun empty => ?_, fun n occupied range => ?_⟩
      · rw [marked, empty]; rfl
      · rw [marked, occupied, noteLost, saturate_eq range]
  · rw [State.port_post, if_neg fun here => other here.1]
  · simp [State.sameBehindPorts, State.sameTallies, State.sameGroups, State.sameStore, State.sameRest, t]

end Sys2Proof.Machine

/-! O19 and O20: the event requests. Each is one new event block of the caller, and its answer. -/

namespace Sys2Proof.Machine

variable {s : State} {p : PortId} {tag : Byte} {b b' : EventBlock} {c : EventClass} {e : Event}

/-! ## Answers that come with a new event block -/

/-- The event block of port `p` is now `b`, and ALERTn# at its level; beside it and the answer nothing changed. -/
def State.onlyEvents (s t : State) (p : PortId) (b : EventBlock) : Prop :=
  (t.port p).events = b ∧ ((t.port p).alert = true ↔ b.holdsDeliverable) ∧ (s.port p).sameEngine (t.port p) ∧
    (t.port p).view = (s.port p).view ∧ (t.port p).fifo = (s.port p).fifo ∧ s.samePortsBut t p ∧
    s.sameBehindPorts t

/-- An answer on the state with the frame taken and the event block of an ONLINE port written. -/
theorem State.onlyEvents_taken (online : (s.port p).session = .online) (tag : Byte) (n : Nat) (b : EventBlock)
    (a : Answer) : let t := ((s.taken p tag n).setEvents p b).respond p tag a
    s.onlyEvents t p b ∧ s.answeredTo t p tag a.status a.payload := by
  intro t
  have here : t.port p = ({ (s.taken p tag n).port p with
      events := b, slot := .ready ⟨tag, a.status, (s.port p).number, a.payload⟩ } : Port).driveAlert := by
    simp only [t, State.port_respond_self, State.setEvents, State.port_setPort_self, Port.driveAlert_number,
      State.number_taken]
    rfl
  have follows : (t.port p).AlertFollows := by rw [here]; exact Port.driveAlert_alertFollows _
  have block : (t.port p).events = b := by rw [here]; rfl
  have session : (t.port p).session = .online := by rw [here]; simpa using online
  rw [Port.AlertFollows, block, and_iff_right session] at follows
  refine ⟨⟨block, follows, ?_, ?_, ?_, fun q other => ?_, fun _ => rfl, fun _ => rfl, ⟨fun _ => rfl, rfl⟩,
    rfl, rfl, rfl⟩, ?_, ?_⟩
  · rw [here]; simp [Port.sameEngine]
  · rw [here]; simp
  · rw [here]; simp
  · simp [t, State.setEvents, other]
  · rw [here]; rfl
  · rw [here]; simp

/-- A served request that gives its caller the block `b` and answers `a`. -/
theorem exec_writesEvents {r : Req} {pl : List Byte} {st : Status} {payload : List Byte} (hs : s.serves p)
    (ha : accepts r pl = true) (acts : actOf r (s.taken p tag (frameBits pl)) p tag pl =
      ((s.taken p tag (frameBits pl)).setEvents p b).reply st payload) :
    ∃ t, exec (requestCommand r p tag pl) s = .next t ∧ s.onlyEvents t p b ∧ s.answeredTo t p tag st payload :=
  ⟨_, exec_answers hs ha acts, State.onlyEvents_taken hs.2 tag _ b ⟨st, payload⟩⟩

/-! ## SET_MASK and ACK_EVENT (R141, R145) -/

theorem actSetMask_eq (s : State) (p : PortId) (tag : Byte) (m : Mask) : actSetMask s p tag [m.code] =
    (s.setEvents p { (s.port p).events with mask := m }).reply .ok
      ([(s.port p).events.mask.code, m.code] ++ (s.port p).events.counts) := by
  simp only [actSetMask, byteAt_zero, readMask_code]

theorem actAckEvent_nothing (bare : (s.port p).events.stack = []) (tag : Byte) (pl : List Byte) :
    actAckEvent s p tag pl = s.deny .nothingInService := by
  simp only [actAckEvent, EventBlock.ack, bare]

theorem actAckEvent_top {rest : List Event} (top : (s.port p).events.stack = e :: rest) (tag : Byte) (pl : List Byte) :
    actAckEvent s p tag pl = (s.setEvents p { (s.port p).events with stack := rest }).reply .ok
      (e.head ++ [byteOf rest.length]) := by
  simp only [actAckEvent, EventBlock.ack, top]

/-- Settles O19: both requests write the caller's block alone, and the pin follows it. -/
theorem maskAndAcknowledge : Obligations.MaskAndAcknowledge := by
  intro s p tag hs b changed
  have block : ∀ n, ((s.taken p tag n).port p).events = b := fun n => by simp [b]
  refine ⟨fun m => ?_, fun bare => ?_, fun e rest top => ?_⟩
  · have acts := fun n => actSetMask_eq (s.taken p tag n) p tag m
    simp only [block] at acts
    exact exec_writesEvents (r := .setMask) hs rfl (acts _)
  · exact exec_denies (r := .ackEvent) hs rfl (actAckEvent_nothing (by rw [block, bare]) tag [])
  · have acts := fun n => actAckEvent_top (s := s.taken p tag n) ((congrArg _ (block n)).trans top) tag []
    simp only [block] at acts
    exact exec_writesEvents (r := .ackEvent) hs rfl (acts _)

/-! ## The selection of TAKE_EVENT (R143) -/

theorem EventBlock.pickClass_of_not_delivers (held : ¬b.delivers c) : b.pickClass c = none :=
  if_neg ((b.delivers_iff c).not.mp held)

theorem EventBlock.pickClass_of_marker {n : Nat} (marker : b.marker = some n) (delivers : b.delivers .fault) :
    b.pickClass .fault = some (overflowEvent n, { b with marker := none }) := by
  unfold EventBlock.pickClass
  rw [if_pos ((b.delivers_iff _).mp delivers), marker]

/-- Where the marker does not come first, the oldest entry of the class is taken. -/
theorem EventBlock.pickClass_of_queue (delivers : b.delivers c) (unmarked : c = .fault → b.marker = none) :
    b.pickClass c = (b.queue.find? (·.cls == c)).map fun e =>
      (e, { b with queue := b.queue.eraseP (·.cls == c) }) := by
  unfold EventBlock.pickClass
  rw [if_pos ((b.delivers_iff c).mp delivers)]
  cases c with
  | fault => rw [unmarked rfl]
  | interval | notice => rfl

/-- Nothing is taken from a class of which no entry and no marker waits. -/
theorem EventBlock.pickClass_of_absent (unmarked : c = .fault → b.marker = none) (absent : ∀ f ∈ b.queue, f.cls ≠ c) :
    b.pickClass c = none := by
  by_cases delivers : b.delivers c
  · rw [EventBlock.pickClass_of_queue delivers unmarked, List.find?_eq_none.mpr (by simpa using absent)]
    rfl
  · exact EventBlock.pickClass_of_not_delivers delivers

theorem EventBlock.pickClass_of_oldest {before after : List Event} (delivers : b.delivers e.cls)
    (unmarked : e.cls = .fault → b.marker = none) (queue : b.queue = before ++ e :: after)
    (oldest : ∀ f ∈ before, f.cls ≠ e.cls) : b.pickClass e.cls = some (e, { b with queue := before ++ after }) := by
  have none_before : before.find? (·.cls == e.cls) = none := List.find?_eq_none.mpr (by simpa using oldest)
  have erased : (before ++ e :: after).eraseP (·.cls == e.cls) = before ++ after := by
    rw [List.eraseP_append_right _ (by simpa using oldest), List.eraseP_cons_of_pos (by simp)]
  rw [EventBlock.pickClass_of_queue delivers unmarked, queue, erased, List.find?_append, none_before]
  simp

/-- The pick of a class stands when no higher class gives one. -/
theorem EventBlock.pick_eq {r : Event × EventBlock} (here : b.pickClass c = some r)
    (higher : ∀ d : EventClass, c.rank < d.rank → b.pickClass d = none) : b.pick = some r := by
  cases c with
  | fault => rw [EventBlock.pick, here]; rfl
  | interval => rw [EventBlock.pick, higher .fault (by decide), here]; rfl
  | notice => rw [EventBlock.pick, higher .fault (by decide), higher .interval (by decide), here]; rfl

theorem EventBlock.take_eq_none (nothing : ¬b.holdsDeliverable) : b.take = none := by
  obtain ⟨unmarked, held⟩ := not_or.mp nothing
  have none_of : ∀ c, b.pickClass c = none := by
    intro c
    by_cases delivers : b.delivers c
    · refine EventBlock.pickClass_of_absent (fun fault => ?_) fun f hf same => held ⟨f, hf, ?_⟩
      · subst fault
        exact by_contra fun marked => unmarked ⟨marked, delivers⟩
      · subst same
        exact delivers
    · exact EventBlock.pickClass_of_not_delivers delivers
  simp [EventBlock.take, EventBlock.pick, none_of]

theorem EventBlock.take_eq_marker {n : Nat} (marker : b.marker = some n) (delivers : b.delivers .fault) :
    b.take = some (overflowEvent n, { b with marker := none, stack := overflowEvent n :: b.stack }) := by
  rw [EventBlock.take, EventBlock.pick_eq (EventBlock.pickClass_of_marker marker delivers) fun d above => ?_]
  · rfl
  · cases d <;> exact absurd above (by decide)

/-- An entry of the highest deliverable class, the oldest of its class, is taken where the marker is not. -/
theorem EventBlock.take_eq_entry {before after : List Event} (queue : b.queue = before ++ e :: after)
    (delivers : b.delivers e.cls) (unmarked : b.marker = none ∨ ¬b.delivers .fault)
    (highest : ∀ f ∈ b.queue, b.delivers f.cls → f.cls.rank ≤ e.cls.rank)
    (oldest : ∀ f ∈ before, f.cls ≠ e.cls) :
    b.take = some (e, { b with queue := before ++ after, stack := e :: b.stack }) := by
  have no_marker : ∀ {c}, b.delivers c → c = .fault → b.marker = none := by
    rintro c deliverable rfl
    exact unmarked.resolve_right (not_not.mpr deliverable)
  have here := EventBlock.pickClass_of_oldest delivers (no_marker delivers) queue oldest
  rw [EventBlock.take, EventBlock.pick_eq here fun d above => ?_]
  · rfl
  · by_cases deliverable : b.delivers d
    · refine EventBlock.pickClass_of_absent (no_marker deliverable) fun f hf same => ?_
      subst same
      exact absurd above (highest f hf deliverable).not_gt
    · exact EventBlock.pickClass_of_not_delivers deliverable

/-! ## TAKE_EVENT (R143) -/

theorem actTakeEvent_nothing (nothing : (s.port p).events.take = none) (tag : Byte) (pl : List Byte) :
    actTakeEvent s p tag pl = s.reply .none (s.port p).events.counts := by
  simp only [actTakeEvent, nothing]

theorem actTakeEvent_some (taken : (s.port p).events.take = some (e, b)) (tag : Byte) (pl : List Byte) :
    actTakeEvent s p tag pl = (s.setEvents p b).reply .ok (e.bytes ++ b.counts) := by
  simp only [actTakeEvent, taken]

/-- A served TAKE_EVENT that finds a deliverable event. -/
theorem exec_takeEvent (hs : s.serves p) (taken : (s.port p).events.take = some (e, b)) :
    ∃ t, exec (.takeEvent p tag []) s = .next t ∧ s.onlyEvents t p b ∧
      s.answeredTo t p tag .ok (e.bytes ++ b.counts) :=
  exec_writesEvents (r := .takeEvent) hs rfl (actTakeEvent_some (by simpa using taken) tag [])

/-- Settles O20: the clauses are the selections of R143, and each moves one event onto the caller's stack. -/
theorem takeEventSelects : Obligations.TakeEventSelects := by
  intro s p tag hs b taken
  have taken_of : ∀ {e q m}, b.take = some (e, ⟨q, m, b.mask, e :: b.stack⟩) → taken e q m := by
    intro e q m selected
    obtain ⟨t, runs, ⟨block, alert, engine, view, fifo, rest⟩, answered⟩ := exec_takeEvent (tag := tag) hs selected
    refine ⟨t, runs, block, by rw [block]; exact alert, ?_, engine, view, fifo, rest⟩
    simpa [Event.bytes, Event.head, EventBlock.counts, Event.cls] using answered
  refine ⟨fun nothing => ?_, fun n marker delivers => ?_, fun before e after queue delivers unmarked highest oldest => ?_⟩
  · have none_waits : ∀ n, ((s.taken p tag n).port p).events.take = none := fun n => by
      rw [State.events_taken]; exact EventBlock.take_eq_none nothing
    have acts := fun n => actTakeEvent_nothing (none_waits n) tag []
    simp only [State.events_taken] at acts
    exact exec_denies (r := .takeEvent) hs rfl (acts _)
  · exact taken_of (EventBlock.take_eq_marker marker delivers)
  · exact taken_of (EventBlock.take_eq_entry queue delivers unmarked highest oldest)

end Sys2Proof.Machine

/-! SUPPORT. What a port that is OFFLINE or within a session end may hold (R161, R164), and what no request of another
port and no work of the part adds to it. -/

namespace Sys2Proof.Machine

variable {s t w : State} {p q : PortId} {u : TallyId} {g : GroupId}

/-! ## What a port holds -/

/-- Port `q` holds no view entry. -/
def State.bindsNothing (s : State) (q : PortId) : Prop := ∀ h, s.viewEntry q h = none

/-- Port `q` stands in no reader set. -/
def State.readsNothing (s : State) (q : PortId) : Prop := ∀ g, ∀ r ∈ s.ring g, q ∉ r.readers

/-- Port `q` administers no tally. -/
def State.runsNoTally (s : State) (q : PortId) : Prop := ∀ u, (s.tally u).admin ≠ some q

/-- Port `q` administers no group. -/
def State.runsNoGroup (s : State) (q : PortId) : Prop := ∀ g, (s.group g).admin ≠ some q

/-- Session, session end, response slot and POST in progress are left as they were. -/
def Port.sameWork (x y : Port) : Prop :=
  y.session = x.session ∧ y.sessionEnd = x.sessionEnd ∧ y.slot = x.slot ∧ y.posting = x.posting

/-- No port's session work and no command in the queue moves, and no port but `p` gains a view entry, a
reader-set place or a role. A port without bindings stays out of the reader set of a record that a close makes
(R88). -/
structure State.gainsFor (s t : State) (p : PortId) : Prop where
  work : ∀ q, (s.port q).sameWork (t.port q)
  views : ∀ q, q ≠ p → s.bindsNothing q → t.bindsNothing q
  readers : ∀ q, q ≠ p → s.bindsNothing q → s.readsNothing q → t.readsNothing q
  tallies : ∀ q, q ≠ p → s.runsNoTally q → t.runsNoTally q
  groups : ∀ q, q ≠ p → s.runsNoGroup q → t.runsNoGroup q
  queue : t.pending = s.pending

theorem State.gainsFor.refl (s : State) (p : PortId) : s.gainsFor s p :=
  ⟨fun _ => ⟨rfl, rfl, rfl, rfl⟩, fun _ _ h => h, fun _ _ _ h => h, fun _ _ h => h, fun _ _ h => h, rfl⟩

theorem State.gainsFor.trans (h : s.gainsFor t p) (h' : t.gainsFor w p) : s.gainsFor w p where
  work q := by
    obtain ⟨session, sessionEnd, slot, posting⟩ := h.work q
    obtain ⟨session', sessionEnd', slot', posting'⟩ := h'.work q
    exact ⟨session'.trans session, sessionEnd'.trans sessionEnd, slot'.trans slot, posting'.trans posting⟩
  views q other bare := h'.views q other (h.views q other bare)
  readers q other bare out := h'.readers q other (h.views q other bare) (h.readers q other bare out)
  tallies q other out := h'.tallies q other (h.tallies q other out)
  groups q other out := h'.groups q other (h.groups q other out)
  queue := h'.queue.trans h.queue

/-! ## One write of a table -/

/-- A role that is kept, vacated or given to `p` is given to no other port. -/
theorem role_ne {old new : Option PortId} (given : new = old ∨ new = none ∨ new = some p) (other : q ≠ p)
    (out : old ≠ some q) : new ≠ some q := by
  rcases given with rfl | rfl | rfl
  · exact out
  · exact nofun
  · exact fun mine => other (Option.some.inj mine).symm

theorem State.setTally_gains {y : Tally} (admin : y.admin = (s.tally u).admin ∨ y.admin = none ∨ y.admin = some p) :
    s.gainsFor (s.setTally u y) p :=
  { State.gainsFor.refl s p with
    tallies := fun q other out v => by
      rw [State.tally_setTally]
      split
      · exact role_ne admin other (out u)
      · exact out v }

theorem State.setGroup_gains {y : Group} (admin : y.admin = (s.group g).admin ∨ y.admin = none ∨ y.admin = some p) :
    s.gainsFor (s.setGroup g y) p :=
  { State.gainsFor.refl s p with
    groups := fun q other out k => by
      rw [State.group_setGroup]
      split
      · exact role_ne admin other (out g)
      · exact out k }

/-- Records that stand with no reader they had not before. -/
theorem State.setRing_gains {l : List SnapRecord}
    (readers : ∀ r ∈ l, ∃ r' ∈ s.ring g, ∀ q ∈ r.readers, q ∈ r'.readers) : s.gainsFor (s.setRing g l) p :=
  { State.gainsFor.refl s p with
    readers := fun q _ _ out k r hr reads => by
      rw [State.ring_setRing] at hr
      split at hr
      · obtain ⟨r', hr', kept⟩ := readers r hr
        exact out g r' hr' (kept q reads)
      · exact out k r hr reads }

theorem State.setPort_gains {o : PortId} {y : Port} (work : (s.port o).sameWork y)
    (view : o = p ∨ ((∀ h : HandleId, (s.port o).view[h] = none) → ∀ h : HandleId, y.view[h] = none)) :
    s.gainsFor (s.setPort o y) p :=
  { State.gainsFor.refl s p with
    work := fun q => by
      rw [State.port_setPort]
      split
      · rename_i here; subst here; exact work
      · exact ⟨rfl, rfl, rfl, rfl⟩
    views := fun q other bare h => by
      by_cases here : q = o
      · subst here
        simpa [State.viewEntry] using view.resolve_left other bare h
      · simpa [State.viewEntry, here] using bare h }

/-! ## Shared operations -/

variable (s p) (tag : Byte) (pl : List Byte) (u g)

theorem State.postList_gains (l : List Posting) : s.gainsFor (s.postList l) p where
  work q := by simp [Port.sameWork]
  views q _ bare h := by simpa [State.viewEntry] using bare h
  readers q _ _ out g := by simpa using out g
  tallies q _ out u := by simpa using out u
  groups q _ out g := by simpa using out g
  queue := by simp

theorem State.postTo_gains (ps : List PortId) (k : EventKind) (v : Subject) (d : Detail) :
    s.gainsFor (s.postTo ps k v d) p := by
  rw [State.postTo_eq]
  exact s.postList_gains p _

theorem State.evaluateWithEvents_gains : s.gainsFor (s.evaluateWithEvents u) p := by
  rw [State.evaluateWithEvents_eq]
  exact (State.setTally_gains (.inl (by simp))).trans (State.postList_gains _ p _)

theorem State.touch_gains : s.gainsFor (s.touch u) p := by
  unfold State.touch
  split
  · unfold State.copyStep
    refine (State.setRing_gains fun r hr => ?_).trans (State.setTally_gains (.inl (by simp)))
    obtain ⟨r', hr', rfl⟩ := List.mem_map.mp hr
    exact ⟨r', hr', fun q reads => by simpa using reads⟩
  · exact .refl s p

/-- Records leave a ring (R104). -/
theorem State.removeRecords_gains (gone : SnapRecord → Bool) : s.gainsFor (s.removeRecords g gone) p :=
  have kept : s.gainsFor (s.setRing g ((s.ring g).filter fun r => !gone r)) p :=
    State.setRing_gains fun r hr => ⟨r, List.mem_of_mem_filter hr, fun _ reads => reads⟩
  ⟨kept.work, kept.views, kept.readers, kept.tallies, kept.groups, kept.queue⟩

theorem SnapRecord.mem_of_withoutReader {r : SnapRecord} {o : PortId} (reads : q ∈ (r.withoutReader o).readers) :
    q ∈ r.readers := by
  unfold SnapRecord.withoutReader at reads
  split at reads
  · exact List.mem_of_mem_filter reads
  · exact reads

theorem State.leaveReaders_gains (o : PortId) (which : SnapRecord → Bool) :
    s.gainsFor (s.leaveReaders o g which) p := by
  refine (s.removeRecords_gains p g _).trans (State.setRing_gains fun r hr => ?_)
  obtain ⟨r', hr', rfl⟩ := List.mem_map.mp hr
  refine ⟨r', hr', fun q reads => ?_⟩
  split at reads
  · exact SnapRecord.mem_of_withoutReader reads
  · exact reads

theorem State.setView_gains (h : HandleId) (o : Option ViewEntry) : s.gainsFor (s.setView p h o) p :=
  State.setPort_gains ⟨rfl, rfl, rfl, rfl⟩ (.inl rfl)

theorem State.setEvents_gains (b : EventBlock) : s.gainsFor (s.setEvents p b) p :=
  State.setPort_gains ⟨rfl, rfl, rfl, rfl⟩ (.inl rfl)

section
variable {s p u g}

theorem State.onHandle_gains {h : Option HandleId} {act : HandleId → ViewEntry → Reply}
    (acts : ∀ h e, s.gainsFor (act h e).1 p) : s.gainsFor (s.onHandle p h act).1 p := by
  unfold State.onHandle
  split
  · exact .refl s p
  · split
    · exact .refl s p
    · exact acts _ _

theorem State.asTallyAdmin_gains {x : Reply} (acts : s.gainsFor x.1 p) : s.gainsFor (s.asTallyAdmin p u x).1 p := by
  unfold State.asTallyAdmin
  split
  · exact acts
  · exact .refl s p

theorem State.direct_gains {h : Option HandleId} {right : Rights → Bool} {act : State → TallyId → Reply}
    (acts : ∀ (w : State) u, w.gainsFor (act w u).1 p) : s.gainsFor (s.direct p h right act).1 p := by
  refine State.onHandle_gains fun _ e => ?_
  split
  · exact (s.touch_gains p e.tally).trans (acts _ _)
  · exact .refl s p

theorem State.onGroup_gains {o : Option GroupId} {act : GroupId → Reply} (acts : ∀ g, s.gainsFor (act g).1 p) :
    s.gainsFor (s.onGroup o act).1 p := by
  unfold State.onGroup
  split
  · exact .refl s p
  · exact acts _

theorem State.asGroupAdmin_gains {x : Reply} (acts : s.gainsFor x.1 p) : s.gainsFor (s.asGroupAdmin p g x).1 p := by
  unfold State.asGroupAdmin
  split
  · exact acts
  · exact .refl s p

end

/-! ## Event requests -/

theorem actSetMask_gains : s.gainsFor (actSetMask s p tag pl).1 p := by
  unfold actSetMask
  split
  · exact .refl s p
  · exact s.setEvents_gains p _

theorem actTakeEvent_gains : s.gainsFor (actTakeEvent s p tag pl).1 p := by
  unfold actTakeEvent
  split
  · exact .refl s p
  · exact s.setEvents_gains p _

theorem actAckEvent_gains : s.gainsFor (actAckEvent s p tag pl).1 p := by
  unfold actAckEvent
  split
  · exact .refl s p
  · exact s.setEvents_gains p _

/-! ## Tally administration -/

theorem actDefine_gains : s.gainsFor (actDefine s p tag pl).1 p := by
  unfold actDefine
  split
  · split
    · exact .refl s p
    · exact State.setTally_gains (.inr (.inr rfl))
  · exact .refl s p

theorem actRetire_gains : s.gainsFor (actRetire s p tag pl).1 p := by
  rcases actRetire_state (s := s) (p := p) tag pl with same | ⟨h, u, retired⟩
  · rw [same]; exact .refl s p
  · rw [retired]; exact (s.setView_gains p h none).trans (State.setTally_gains (.inr (.inl rfl)))

theorem actGrant_gains : s.gainsFor (actGrant s p tag pl).1 p := by
  rcases actGrant_state (s := s) (p := p) tag pl with same | ⟨u, rights, -, granted⟩
  · rw [same]; exact .refl s p
  · rw [granted]; exact State.setTally_gains (.inl rfl)

theorem State.setTallyState_gains (st : TallyState) : s.gainsFor (s.setTallyState u st) p :=
  (s.touch_gains p u).trans (State.setTally_gains (.inl rfl))

theorem actFreeze_gains : s.gainsFor (actFreeze s p tag pl).1 p :=
  State.onHandle_gains fun _ e => State.asTallyAdmin_gains (s.setTallyState_gains p e.tally _)

theorem actResume_gains : s.gainsFor (actResume s p tag pl).1 p :=
  State.onHandle_gains fun _ e => State.asTallyAdmin_gains (s.setTallyState_gains p e.tally _)

theorem actClaimTally_gains : s.gainsFor (actClaimTally s p tag pl).1 p := by
  refine State.onHandle_gains fun _ e => ?_
  dsimp only
  split
  · exact .refl s p
  · exact State.setTally_gains (.inr (.inr rfl))

theorem State.setLimit_gains (d : Side) (l : Option Limit) :
    s.gainsFor (s.setTally u ((s.tally u).setLimit d l)) p :=
  State.setTally_gains (.inl (by cases d <;> rfl))

theorem actSetLimit_gains : s.gainsFor (actSetLimit s p tag pl).1 p := by
  unfold actSetLimit
  split
  · rename_i op _ _ _ _
    refine State.onHandle_gains fun _ e => State.asTallyAdmin_gains ?_
    dsimp only
    split
    · exact .refl s p
    · cases op with
      | report => exact .refl s p
      | remove => exact s.setLimit_gains p _ _ _
      | set =>
        dsimp only
        split
        · exact s.setLimit_gains p _ _ _
        · exact .refl s p
  · exact .refl s p

/-! ## Views and contributions -/

theorem actBind_gains : s.gainsFor (actBind s p tag pl).1 p := by
  unfold actBind
  split
  · dsimp only
    split
    · exact .refl s p
    · split
      · exact .refl s p
      · split
        · exact .refl s p
        · split
          · exact .refl s p
          · exact (s.setView_gains p _ _).trans (State.setTally_gains (.inl rfl))
  · exact .refl s p

theorem actUnbind_gains : s.gainsFor (actUnbind s p tag pl).1 p :=
  State.onHandle_gains fun h _ => (s.setView_gains p h none).trans (State.setTally_gains (.inl rfl))

/-- Staging writes a FIFO and staged counts. -/
theorem State.stages.gains {o : PortId} {l : List Staged} (h : s.stages t o l) : s.gainsFor t p := by
  have port : ∀ q, (s.port q).sameWork (t.port q) ∧ (t.port q).view = (s.port q).view := fun q => by
    by_cases here : q = o
    · subst here
      obtain ⟨session, -, sessionEnd, posting, -, -⟩ := h.engine
      exact ⟨⟨session, sessionEnd, h.slot, posting⟩, h.view⟩
    · rw [h.ports q here]
      exact ⟨⟨rfl, rfl, rfl, rfl⟩, rfl⟩
  exact {
    work := fun q => (port q).1
    views := fun q _ bare k => by simpa [State.viewEntry, (port q).2] using bare k
    readers := fun q _ _ out g => by rw [h.store.1]; exact out g
    tallies := fun q _ out u => by rw [h.tally]; exact out u
    groups := fun q _ out g => by rw [h.groups]; exact out g
    queue := h.rest.2.2 }

theorem actPost_gains : s.gainsFor (actPost s p tag pl).1 p := by
  obtain ⟨-, staged⟩ := s.postLoop_stages p (postEntries pl)
  exact staged.gains s p

theorem Tally.applyProduct_admin (x : Tally) (n : Int) : (x.applyProduct n).1.admin = x.admin := by
  unfold Tally.applyProduct
  split
  · unfold Tally.applySumU; split
    · rfl
    · split <;> rfl
  · unfold Tally.applySumS; split
    · rfl
    · split <;> rfl
  · unfold Tally.applyPeak; split <;> rfl

/-- Steps 1 to 4 of an apply (R54). -/
theorem State.applyContribution_gains (e : Staged) : s.gainsFor (s.applyContribution e) p := by
  have written : ∀ {y : Tally} {l}, s.applyContribution e = ((s.touch e.tally).setTally e.tally y).postList l →
      y.admin = ((s.touch e.tally).tally e.tally).admin → s.gainsFor (s.applyContribution e) p := by
    intro y l eq admin
    rw [eq]
    exact ((s.touch_gains p e.tally).trans (State.setTally_gains (.inl admin))).trans (State.postList_gains _ p l)
  by_cases frozen : ((s.touch e.tally).tally e.tally).state = .frozen
  · exact written (State.applyContribution_dropped rfl frozen) rfl
  · have product := ((s.touch e.tally).tally e.tally).applyProduct_admin e.product
    rcases takes : ((s.touch e.tally).tally e.tally).applyProduct e.product with ⟨y, _ | _ | _⟩
    all_goals rw [takes] at product
    · refine written (State.applyContribution_applied rfl frozen takes) ?_
      rw [Tally.evaluate_admin]
      exact product
    · exact written (State.applyContribution_rejected rfl frozen takes) product
    · exact written (State.applyContribution_overflowed rfl frozen takes) product

/-- Step 5 of an apply (R54). -/
theorem State.leaveFifo_gains (o : PortId) (e : Staged) (rest : List Staged) :
    s.gainsFor (s.leaveFifo o e rest) p := by
  refine .trans (t := s.setPort o { s.port o with fifo := rest }) ?_ ?_
  · exact State.setPort_gains ⟨rfl, rfl, rfl, rfl⟩ (.inr id)
  · exact State.setTally_gains (.inl rfl)

/-! ## Direct access -/

theorem State.storeValue_gains (v : Option Int) : s.gainsFor (s.storeValue u v) p := by
  unfold State.storeValue
  split
  · exact .refl s p
  · refine .trans ?_ (State.evaluateWithEvents_gains _ p u)
    exact State.setTally_gains (.inl rfl)

theorem actRead_gains : s.gainsFor (actRead s p tag pl).1 p := State.direct_gains fun w _ => .refl w p

theorem actTake_gains : s.gainsFor (actTake s p tag pl).1 p :=
  State.direct_gains fun w u => w.storeValue_gains p u _

theorem actExchange_gains : s.gainsFor (actExchange s p tag pl).1 p := by
  unfold actExchange
  split
  · refine State.direct_gains fun w u => ?_
    dsimp only
    split
    · exact .refl w p
    · split
      · exact .refl w p
      · split
        · exact w.storeValue_gains p u _
        · exact .refl w p
  · exact .refl s p

theorem actClearFlags_gains : s.gainsFor (actClearFlags s p tag pl).1 p := by
  refine State.direct_gains fun w u => ?_
  dsimp only
  split
  · exact State.setTally_gains (.inl rfl)
  · exact .refl w p

/-! ## Closes -/

theorem State.dropOldest_gains : s.gainsFor (s.dropOldest g) p := by
  unfold State.dropOldest
  split
  · exact .refl s p
  · rename_i r rest ring
    have kept : s.gainsFor (s.setRing g rest) p :=
      State.setRing_gains fun r hr => ⟨r, by rw [ring]; exact List.mem_cons_of_mem _ hr, fun _ reads => reads⟩
    refine .trans ?_ (State.postTo_gains _ p _ _ _ _)
    exact ⟨kept.work, kept.views, kept.readers, kept.tallies, kept.groups, kept.queue⟩

theorem State.dropMany_gains (k : Nat) : s.gainsFor (s.dropMany g k) p := by
  induction k generalizing s with
  | zero => exact .refl s p
  | succ k ih => exact (s.dropOldest_gains p g).trans (ih _)

theorem State.unobservedClose_gains : s.gainsFor (s.unobservedClose g) p := by
  refine .trans (t := s.mapTallies _) { State.gainsFor.refl s p with tallies := fun q _ out u => ?_ }
    (State.setGroup_gains (.inl rfl))
  rw [State.tally_mapTallies]
  split
  · rw [Tally.startInterval_admin]; exact out u
  · exact out u

theorem State.bound_of_bindsNothing {s : State} {q : PortId} (bare : s.bindsNothing q) (u : TallyId) :
    s.bound q u = false := by
  unfold State.bound
  rw [List.any_eq_false]
  intro e he
  obtain ⟨i, hi, rfl⟩ := List.getElem_of_mem he
  have entry : (s.port q).view[i]'(by simpa using hi) = none := bare ⟨i, by simpa using hi⟩
  simp [entry]

/-- The readers of a record that a close makes hold bindings (R88). -/
theorem State.startClose_gains (c : Cause) (members : List TallyId) :
    s.gainsFor (s.startClose g c members (s.readersOf members)) p := by
  have kept : s.gainsFor (s.setGroup g { s.group g with
      missed := 0, interval := (s.group g).interval + 1, state := .closing, walk := 0 }) p :=
    State.setGroup_gains (.inl rfl)
  refine ⟨kept.work, kept.views, fun q _ bare out k r hr => ?_, kept.tallies, kept.groups, kept.queue⟩
  rw [State.ring_startClose] at hr
  split at hr
  · rcases List.mem_append.mp hr with old | new
    · exact out g r old
    · rw [List.mem_singleton.mp new]
      intro reads
      obtain ⟨u, _, bound, _⟩ : ∃ u ∈ members, s.bound q u = true ∧ (s.rightsOf q u).read = true := by
        simpa [State.newRecord, State.readersOf] using reads
      rw [State.bound_of_bindsNothing bare] at bound
      cases bound
  · exact out k r hr

theorem State.attemptClose_gains (c : Cause) : s.gainsFor (s.attemptClose g c).1 p := by
  by_cases seen : s.observed g
  · cases admitted : s.admission g (s.membersOf g).length with
    | admitted k =>
      rw [State.attemptClose_admitted seen admitted, State.afterClose, ← State.readersOf_dropMany s g k]
      exact (s.dropMany_gains p g k).trans (State.startClose_gains _ p g c _)
    | ringFull => rw [State.attemptClose_ringFull seen admitted]; exact .refl s p
    | noSpace => rw [State.attemptClose_noSpace seen admitted]; exact .refl s p
  · rw [State.attemptClose_unobserved seen]
    exact s.unobservedClose_gains p g

theorem actClose_gains : s.gainsFor (actClose s p tag pl).1 p := by
  refine State.onGroup_gains fun g => State.asGroupAdmin_gains ?_
  have attempt := s.attemptClose_gains p g .manual
  split
  · exact .refl s p
  · dsimp only
    split
    · exact attempt
    · exact attempt
    · exact .refl s p
    · exact .refl s p

theorem State.missClose_gains (why : MissedReason) : s.gainsFor (s.missClose g why) p := by
  rw [State.missClose_eq]
  refine .trans ?_ (State.postList_gains _ p _)
  exact State.setGroup_gains (.inl rfl)

theorem State.timedAttempt_gains : s.gainsFor (s.timedAttempt g) p := by
  have attempt := s.attemptClose_gains p g .timed
  unfold State.timedAttempt
  split
  · exact s.missClose_gains p g _
  · dsimp only
    split
    · exact attempt
    · exact attempt
    · exact s.missClose_gains p g _
    · exact s.missClose_gains p g _

theorem State.handleEdge_gains : s.gainsFor (s.handleEdge g) p := by
  unfold State.handleEdge
  dsimp only
  split
  · exact .refl s p
  · split
    · exact State.setGroup_gains (.inl rfl)
    · split
      · exact State.setGroup_gains (.inl rfl)
      · refine .trans ?_ (State.timedAttempt_gains _ p g)
        exact State.setGroup_gains (.inl rfl)

@[simp] theorem Group.meetEdge_admin (x : Group) : x.meetEdge.admin = x.admin := by
  unfold Group.meetEdge
  split
  · rfl
  · split <;> rfl

theorem State.tickEdge_gains : s.gainsFor s.tickEdge p :=
  { State.gainsFor.refl s p with
    groups := fun q _ out g => by
      rw [State.group_tickEdge, Group.meetEdge_admin]
      exact out g }

theorem State.copierAct_gains : s.gainsFor (s.copierAct g) p := by
  unfold State.copierAct
  split
  · split
    · exact .refl s p
    · exact (s.touch_gains p _).trans (State.setGroup_gains (.inl rfl))
  · exact .refl s p

theorem State.endClose_gains : s.gainsFor (s.endClose g) p := by
  unfold State.endClose
  split
  · exact .refl s p
  · dsimp only
    have ended : s.gainsFor (s.setGroup g { s.group g with state := .opened, walk := 0 }) p :=
      State.setGroup_gains (.inl rfl)
    split
    · exact ended.trans (State.removeRecords_gains _ p g _)
    · refine ended.trans (.trans (State.setRing_gains fun r hr => ?_) (State.postTo_gains _ p _ _ _ _))
      obtain ⟨r', hr', rfl⟩ := List.mem_map.mp hr
      refine ⟨r', hr', fun q reads => ?_⟩
      split at reads <;> exact reads

/-! ## Group and snapshot requests -/

theorem actClaimGroup_gains : s.gainsFor (actClaimGroup s p tag pl).1 p := by
  refine State.onGroup_gains fun g => ?_
  dsimp only
  split
  · exact .refl s p
  · exact State.setGroup_gains (.inr (.inr rfl))

theorem actSetGroup_gains : s.gainsFor (actSetGroup s p tag pl).1 p := by
  unfold actSetGroup
  split
  · exact .refl s p
  · exact State.onGroup_gains fun g => State.asGroupAdmin_gains (State.setGroup_gains (.inl rfl))

theorem actGroupStatus_gains : s.gainsFor (actGroupStatus s p tag pl).1 p := State.onGroup_gains fun _ => .refl s p

theorem actSnapList_gains : s.gainsFor (actSnapList s p tag pl).1 p := by
  unfold actSnapList
  split <;> exact .refl s p

theorem actReadSnap_gains : s.gainsFor (actReadSnap s p tag pl).1 p := by
  have same : (actReadSnap s p tag pl).1 = s := by
    unfold actReadSnap
    dsimp only
    repeat' split
    all_goals rfl
  rw [same]
  exact .refl s p

theorem actRelease_gains : s.gainsFor (actRelease s p tag pl).1 p := by
  unfold actRelease
  dsimp only
  split
  · exact .refl s p
  · split
    · exact .refl s p
    · split
      · exact .refl s p
      · exact s.leaveReaders_gains p _ p _

end Sys2Proof.Machine

/-! O57: sessions. What a session end has torn down stays torn down: the tables give nothing to a port but that of the
request (`State.gainsFor`), and a request is taken on an EMPTY slot, so on a port within no session end (R160). -/

namespace Sys2Proof.Machine

variable {s t w : State} {p q : PortId} {x y : Port} {tag : Byte}

/-! ## The invariant, by the steps of a session end -/

/-- Session, session end, slot and POST in progress of a port agree (R160, R161, R165). -/
structure Port.WorkSound (x : Port) : Prop where
  offline : x.session = .offline → x.sessionEnd = none
  ending : x.sessionEnd ≠ none → x.slot.heldBySession
  posting : x.posting ≠ none → x.session = .online ∧ x.slot.heldByPost ∧
    (x.sessionEnd = none ∨ x.sessionEnd = some .views)

/-- What a step of the session end of port `q` tears down is gone (R164). -/
def State.tornDown (s : State) (q : PortId) : EndStep → Prop
  | .views => s.bindsNothing q
  | .readers => s.readsNothing q
  | .tallyAdmin => s.runsNoTally q
  | .groupAdmin => s.runsNoGroup q
  | .events => True

theorem State.sessionsSound_iff : s.SessionsSound ↔
    ∀ q, (s.port q).WorkSound ∧ ∀ step : EndStep, (s.port q).past step.index → s.tornDown q step := by
  refine forall_congr' fun q => ⟨fun h => ?_, fun h => ?_⟩
  · obtain ⟨offline, ending, posting, views, readers, tallies, groups⟩ := h
    refine ⟨⟨offline, ending, posting⟩, fun step past => ?_⟩
    cases step
    case views => exact views past
    case readers => exact readers past
    case tallyAdmin => exact tallies past
    case groupAdmin => exact groups past
    case events => trivial
  · obtain ⟨⟨offline, ending, posting⟩, torn⟩ := h
    exact ⟨offline, ending, posting, torn .views, torn .readers, torn .tallyAdmin, torn .groupAdmin⟩

theorem State.SessionsSound.work (hs : s.SessionsSound) (q : PortId) : (s.port q).WorkSound :=
  (State.sessionsSound_iff.mp hs q).1

theorem State.SessionsSound.torn (hs : s.SessionsSound) {step : EndStep} (past : (s.port q).past step.index) :
    s.tornDown q step :=
  (State.sessionsSound_iff.mp hs q).2 step past

/-- An ONLINE port whose session end, if any, has taken no step is past none (R164). -/
theorem Port.not_past (online : x.session = .online) (untorn : x.sessionEnd = none ∨ x.sessionEnd = some .views)
    (step : EndStep) : ¬x.past step.index := by
  rintro (offline | ⟨next, ending, before⟩)
  · rw [online] at offline; cases offline
  · rcases untorn with none | views
    · rw [none] at ending; cases ending
    · rw [views] at ending
      cases ending
      cases step <;> simp [EndStep.index] at before

/-- A port past one step is past those before it. -/
theorem Port.past_of_le {j k : Nat} (before : j ≤ k) (past : x.past k) : x.past j := by
  rcases past with offline | ⟨next, ending, later⟩
  · exact .inl offline
  · exact .inr ⟨next, ending, by omega⟩

theorem Port.sameWork.past_iff {k : Nat} (h : x.sameWork y) : y.past k ↔ x.past k := by
  obtain ⟨session, sessionEnd, -, -⟩ := h
  rw [Port.past, Port.past, session, sessionEnd]

theorem Port.WorkSound.of_sameWork (hx : x.WorkSound) (h : x.sameWork y) : y.WorkSound := by
  obtain ⟨session, sessionEnd, slot, posting⟩ := h
  obtain ⟨offline, ending, post⟩ := hx
  rw [← session, ← sessionEnd] at offline
  rw [← sessionEnd, ← slot] at ending
  rw [← session, ← sessionEnd, ← slot, ← posting] at post
  exact ⟨offline, ending, post⟩

/-! ## Steps that move no session work -/

/-- A port that gains nothing keeps what its session end has torn down. -/
theorem State.gainsFor.tornDown (h : s.gainsFor t p) (other : q ≠ p)
    (torn : ∀ step : EndStep, (s.port q).past step.index → s.tornDown q step) (step : EndStep)
    (past : (t.port q).past step.index) : t.tornDown q step := by
  rw [(h.work q).past_iff] at past
  cases step
  case views => exact h.views q other (torn .views past)
  case readers => exact h.readers q other (torn .views (Port.past_of_le (by decide) past)) (torn .readers past)
  case tallyAdmin => exact h.tallies q other (torn .tallyAdmin past)
  case groupAdmin => exact h.groups q other (torn .groupAdmin past)
  case events => trivial

/-- The part's own work gives nothing to any port. -/
theorem State.SessionsSound.of_gains (hs : s.SessionsSound) (h : ∀ p, s.gainsFor t p) : t.SessionsSound := by
  refine State.sessionsSound_iff.mpr fun q => ?_
  obtain ⟨p, other⟩ := exists_ne q
  exact ⟨(hs.work q).of_sameWork ((h p).work q), (h p).tornDown other.symm fun _ => hs.torn⟩

/-- What a request gives, it gives to a port within no session end. -/
theorem State.SessionsSound.of_request (hs : s.SessionsSound) (h : s.gainsFor t p)
    (online : (s.port p).session = .online) (resting : (s.port p).sessionEnd = none) : t.SessionsSound := by
  refine State.sessionsSound_iff.mpr fun q => ⟨(hs.work q).of_sameWork (h.work q), ?_⟩
  by_cases other : q = p
  · subst other
    intro step past
    rw [(h.work q).past_iff] at past
    exact absurd past (Port.not_past online (.inl resting) step)
  · exact h.tornDown other fun _ => hs.torn

/-! ## Writes of one port's session work -/

/-- A write of a port that leaves its bindings. -/
theorem State.SessionsSound.setPort (hs : s.SessionsSound) (view : y.view = (s.port p).view) (work : y.WorkSound)
    (torn : ∀ step : EndStep, y.past step.index → s.tornDown p step) : (s.setPort p y).SessionsSound := by
  have kept : ∀ q step, s.tornDown q step → (s.setPort p y).tornDown q step := fun q step gone => by
    cases step
    case views =>
      intro h
      by_cases here : q = p
      · subst here
        simpa [State.viewEntry, view] using gone h
      · simpa [State.viewEntry, here] using gone h
    all_goals exact gone
  refine State.sessionsSound_iff.mpr fun q => ?_
  by_cases here : q = p
  · subst here
    rw [State.port_setPort_self]
    exact ⟨work.of_sameWork ⟨rfl, rfl, rfl, rfl⟩, fun step past => kept q step (torn step past)⟩
  · rw [State.port_setPort_ne s p q y here]
    exact ⟨hs.work q, fun step past => kept q step (hs.torn past)⟩

/-- An ONLINE port whose session end, if any, has taken no step. -/
theorem State.SessionsSound.setPort_untorn (hs : s.SessionsSound) (view : y.view = (s.port p).view)
    (work : y.WorkSound) (online : y.session = .online)
    (untorn : y.sessionEnd = none ∨ y.sessionEnd = some .views) : (s.setPort p y).SessionsSound :=
  hs.setPort view work fun step past => absurd past (Port.not_past online untorn step)

/-- Another slot, or another POST in progress. -/
theorem State.SessionsSound.setPort_slot (hs : s.SessionsSound) (view : y.view = (s.port p).view)
    (session : y.session = (s.port p).session) (sessionEnd : y.sessionEnd = (s.port p).sessionEnd)
    (ending : y.sessionEnd ≠ none → y.slot.heldBySession)
    (posting : y.posting ≠ none → (s.port p).posting ≠ none ∧ y.slot.heldByPost) : (s.setPort p y).SessionsSound := by
  have work := hs.work p
  refine hs.setPort view ⟨?_, ending, fun waits => ?_⟩ fun step past => ?_
  · rw [session, sessionEnd]; exact work.offline
  · obtain ⟨waited, held⟩ := posting waits
    obtain ⟨online, -, untorn⟩ := work.posting waited
    exact ⟨session.trans online, held, by rwa [sessionEnd]⟩
  · rw [Port.past, session, sessionEnd] at past
    exact hs.torn past

theorem State.SessionsSound.respond (hs : s.SessionsSound) (resting : (s.port p).sessionEnd = none)
    (idle : (s.port p).posting = none) (tag : Byte) (a : Answer) : (s.respond p tag a).SessionsSound :=
  hs.setPort_slot rfl rfl rfl (absurd resting) (absurd idle)

/-! ## The session end (R164) -/

theorem EndStep.index_inj {a b : EndStep} (same : a.index = b.index) : a = b := by
  cases a <;> cases b <;> cases same <;> rfl

/-- A step of the session end has torn down its part, and the next is noted. -/
theorem State.SessionsSound.noteStep {a b : EndStep} (hs : s.SessionsSound) (due : (s.port p).sessionEnd = some a)
    (idle : (s.port p).posting = none) (next : b.index = a.index + 1) (gone : s.tornDown p a) :
    (s.noteStep p (some b)).SessionsSound := by
  have work := hs.work p
  have ending : (s.port p).sessionEnd ≠ none := by simp [due]
  refine hs.setPort rfl ⟨fun offline => absurd (work.offline offline) ending, fun _ => work.ending ending,
    absurd idle⟩ fun step past => ?_
  rcases past with offline | ⟨c, noted, before⟩
  · exact absurd (work.offline offline) ending
  · cases noted
    by_cases here : step = a
    · rw [here]; exact gone
    · refine hs.torn (.inr ⟨a, due, ?_⟩)
      have other : step.index ≠ a.index := fun same => here (EndStep.index_inj same)
      omega

/-- Some work of the part has torn down what step `a` tears down, and the next step is noted. -/
theorem State.SessionsSound.tearDown {a b : EndStep} (hs : s.SessionsSound) (gains : ∀ o, s.gainsFor w o)
    (gone : w.tornDown p a) (due : (s.port p).sessionEnd = some a) (idle : (s.port p).posting = none)
    (next : b.index = a.index + 1) : (w.noteStep p (some b)).SessionsSound := by
  obtain ⟨-, sessionEnd, -, posting⟩ := (gains p).work p
  exact (hs.of_gains gains).noteStep (sessionEnd.trans due) (posting.trans idle) next gone

theorem State.SessionsSound.drawn (hs : s.SessionsSound) : s.draw.SessionsSound := hs

/-- The state with no entry in the view of port `p`, the bind counts lowered (R37). -/
def State.unviewed (s : State) (p : PortId) : State :=
  (s.mapTallies fun t x => { x with bindCount := x.bindCount - s.entriesNaming p t }).setPort p
    { s.port p with view := Vector.replicate 64 none }

theorem State.endViews_eq (s : State) (p : PortId) : s.endViews p = (s.unviewed p).noteStep p (some .readers) := by
  simp only [State.endViews, State.noteStep, State.unviewed, State.port_setPort_self, State.setPort_setPort]
  rfl

theorem State.unviewed_gains (s : State) (p o : PortId) : s.gainsFor (s.unviewed p) o := by
  have counted : s.gainsFor (s.mapTallies fun t x => { x with bindCount := x.bindCount - s.entriesNaming p t }) o :=
    { State.gainsFor.refl s o with
      tallies := fun q _ out u => by rw [State.tally_mapTallies]; exact out u }
  exact counted.trans (State.setPort_gains ⟨rfl, rfl, rfl, rfl⟩ (.inr fun _ h => by simp))

theorem State.SessionsSound.endViews (hs : s.SessionsSound) (due : (s.port p).sessionEnd = some .views)
    (idle : (s.port p).posting = none) : (s.endViews p).SessionsSound := by
  have gone : (s.unviewed p).bindsNothing p := fun h => by simp [State.unviewed, State.viewEntry]
  rw [State.endViews_eq]
  exact hs.tearDown (a := .views) (s.unviewed_gains p) gone due idle rfl

theorem State.leaveRings_gains (s : State) (p o : PortId) (gs : List GroupId) : s.gainsFor (s.leaveRings p gs) o := by
  induction gs generalizing s with
  | nil => exact .refl s o
  | cons g gs ih => exact (s.leaveReaders_gains o g p _).trans (ih _)

theorem SnapRecord.not_mem_afterLeaving {r r' : SnapRecord} (left : r.afterLeaving p = some r') : p ∉ r'.readers := by
  rw [SnapRecord.afterLeaving_eq] at left
  split at left
  · cases left
  · cases left
    unfold SnapRecord.withoutReader
    split
    · simp
    · assumption

theorem State.SessionsSound.endReaders (hs : s.SessionsSound) (due : (s.port p).sessionEnd = some .readers)
    (idle : (s.port p).posting = none) : (s.endReaders p).SessionsSound := by
  have gone : (s.leaveRings p (List.finRange 8)).readsNothing p := by
    intro g r hr
    rw [State.ring_leaveRings (List.nodup_finRange 8), if_pos (List.mem_finRange g)] at hr
    obtain ⟨r', -, left⟩ := List.mem_filterMap.mp hr
    exact SnapRecord.not_mem_afterLeaving left
  exact hs.tearDown (a := .readers) (s.leaveRings_gains p · _) gone due idle rfl

theorem State.vacatedTallies_gains (s : State) (l : List TallyId) (o : PortId) : s.gainsFor (s.vacatedTallies l) o :=
  { State.gainsFor.refl s o with
    tallies := fun q _ out u => by
      rw [State.vacatedTallies, State.tally_mapTallies]
      split
      · exact nofun
      · exact out u }

theorem State.SessionsSound.endTallyAdmin (hs : s.SessionsSound) (due : (s.port p).sessionEnd = some .tallyAdmin)
    (idle : (s.port p).posting = none) : (s.endTallyAdmin p).SessionsSound := by
  have gone : ((s.vacatedTallies (s.administered p)).postList (s.tallyNotices p (s.administered p))).runsNoTally p := by
    intro u
    rw [State.tally_postList, State.vacatedTallies, State.tally_mapTallies]
    split
    · exact nofun
    · rename_i other
      exact fun mine => other (State.mem_administered.mpr mine)
  unfold State.endTallyAdmin
  rw [State.foldl_vacateTally]
  exact (hs.tearDown (a := .tallyAdmin) (fun o => (s.vacatedTallies_gains _ o).trans (State.postList_gains _ o _)) gone
    due idle rfl).drawn

theorem State.vacatedGroups_gains (s : State) (l : List GroupId) (o : PortId) : s.gainsFor (s.vacatedGroups l) o :=
  { State.gainsFor.refl s o with
    groups := fun q _ out g => by
      rw [State.vacatedGroups, State.group_mapGroups]
      split
      · exact nofun
      · exact out g }

theorem State.SessionsSound.endGroupAdmin (hs : s.SessionsSound) (due : (s.port p).sessionEnd = some .groupAdmin)
    (idle : (s.port p).posting = none) : (s.endGroupAdmin p).SessionsSound := by
  have gone : ((s.vacatedGroups (s.administeredGroups p)).postList
      (s.groupNotices p (s.administeredGroups p))).runsNoGroup p := by
    intro g
    rw [State.group_postList, State.vacatedGroups, State.group_mapGroups]
    split
    · exact nofun
    · rename_i other
      exact fun mine => other (State.mem_administeredGroups.mpr mine)
  unfold State.endGroupAdmin
  rw [State.foldl_vacateGroup]
  exact (hs.tearDown (a := .groupAdmin) (fun o => (s.vacatedGroups_gains _ o).trans (State.postList_gains _ o _)) gone
    due idle rfl).drawn

theorem State.SessionsSound.endEvents (hs : s.SessionsSound) (due : (s.port p).sessionEnd = some .events)
    (idle : (s.port p).posting = none) : (s.endEvents p).SessionsSound := by
  refine hs.setPort rfl ⟨fun _ => rfl, absurd rfl, absurd idle⟩ fun step _ => ?_
  by_cases last : step = .events
  · subst last; trivial
  · refine hs.torn (.inr ⟨.events, due, ?_⟩)
    cases step <;> simp_all [EndStep.index]

theorem State.SessionsSound.whenDue (hs : s.SessionsSound) {step : EndStep} {f : State → State}
    (acts : (s.port p).sessionEnd = some step → (s.port p).posting = none → (f s).SessionsSound) :
    (s.whenDue p step f).SessionsSound := by
  unfold State.whenDue
  split
  · rename_i h
    exact acts h.1 h.2
  · exact hs

theorem State.SessionsSound.unlessReset (hs : s.SessionsSound) {f : State → State} (acts : (f s).SessionsSound) :
    (s.unlessReset f).SessionsSound := by
  unfold State.unlessReset
  split
  · exact hs
  · exact acts

/-- An OFFLINE port has no POST in progress (R165). -/
theorem State.SessionsSound.idle_of_offline (hs : s.SessionsSound) (offline : (s.port p).session = .offline) :
    (s.port p).posting = none := by
  by_contra waits
  have online := ((hs.work p).posting waits).1
  rw [offline] at online
  cases online

/-- A session opens on a port that is OFFLINE, and so within no session end (R161, R162). -/
theorem State.SessionsSound.openSession (hs : s.SessionsSound) (offline : (s.port p).session = .offline) :
    (s.openSession p).SessionsSound := by
  have resting := (hs.work p).offline offline
  exact hs.setPort_untorn rfl ⟨nofun, absurd resting, absurd (hs.idle_of_offline offline)⟩ rfl (.inl resting)

theorem State.SessionsSound.openAfterEnd (hs : s.SessionsSound) : (s.openAfterEnd p).SessionsSound := by
  unfold State.openAfterEnd
  split
  · rename_i tag offline resting held
    refine (hs.openSession offline).respond ?_ ?_ tag _
    · simpa [State.openSession] using resting
    · simpa [State.openSession] using hs.idle_of_offline offline
  · exact hs

/-! ## POST in parts and applies -/

theorem State.examineEntry_gains (s : State) (p o : PortId) (h : Byte) (x : BitVec 32) :
    s.gainsFor (s.examineEntry p h x).1 o :=
  (s.examineEntry_stages p h x).2.gains s o

theorem State.SessionsSound.postProgress (hs : s.SessionsSound) (w : PostWork) (rest : List (Byte × BitVec 32))
    (sts : List Status) (waits : (s.port p).posting ≠ none) : (s.postProgress p w rest sts).SessionsSound := by
  have work := hs.work p
  obtain ⟨-, held, -⟩ := work.posting waits
  have ended : (s.setPort p { s.port p with posting := none }).SessionsSound :=
    hs.setPort_slot rfl rfl rfl work.ending (absurd rfl)
  unfold State.postProgress
  split
  · exact hs.setPort_slot rfl rfl rfl work.ending fun _ => ⟨waits, held⟩
  · dsimp only
    split
    · rename_i slot
      rw [State.port_setPort_self, Port.driveAlert_slot] at slot
      refine ended.respond ?_ (by simp) w.tag _
      by_contra ending
      have := work.ending (by simpa using ending)
      rw [slot] at this
      exact this
    · exact ended

theorem State.SessionsSound.postNext (hs : s.SessionsSound) : (s.postNext p).SessionsSound := by
  unfold State.postNext
  split
  · exact hs
  · rename_i w posting
    have waits : (s.port p).posting ≠ none := by simp [posting]
    split
    · exact hs.postProgress w _ _ waits
    · rename_i h q rest _
      have gains := fun o => s.examineEntry_gains p o h q
      obtain ⟨-, -, -, same⟩ := (gains p).work p
      have examined := hs.of_gains gains
      dsimp only
      split <;> exact examined.postProgress w _ _ (by rwa [same])

/-- A slot that a DRAIN holds is held by no session end and by no POST. -/
theorem State.SessionsSound.drainDone (hs : s.SessionsSound) (q : PortId) : (s.drainDone q).SessionsSound := by
  have work := hs.work q
  unfold State.drainDone
  split
  · rename_i tag slot _
    have resting : (s.port q).sessionEnd = none := by
      by_contra ending
      have held := work.ending ending
      rw [slot] at held
      exact held
    have idle : (s.port q).posting = none := by
      by_contra waits
      obtain ⟨-, held, -⟩ := work.posting waits
      rw [slot] at held
      exact held
    exact hs.respond resting idle tag _
  · exact hs

theorem State.SessionsSound.pointed (hs : s.SessionsSound) (q : PortId) :
    State.SessionsSound { s with pointer := q } := hs

theorem State.SessionsSound.applyNext (hs : s.SessionsSound) : s.applyNext.SessionsSound := by
  unfold State.applyNext
  split
  · exact hs
  · split
    · exact hs
    · rename_i q _ _ e rest _
      have applied := hs.of_gains fun o => (s.applyContribution_gains o e).trans (State.leaveFifo_gains _ o q e rest)
      exact (applied.drainDone q).pointed _

/-! ## Requests -/

/-- Every request but HELLO, LEAVE and DRAIN leaves the session work of all ports. -/
theorem actOf_gains (r : Req) (hello : r ≠ .hello) (leave : r ≠ .leave) (drain : r ≠ .drain) (s : State) (p : PortId)
    (tag : Byte) (pl : List Byte) : s.gainsFor (actOf r s p tag pl).1 p := by
  cases r
  case hello => exact absurd rfl hello
  case leave => exact absurd rfl leave
  case drain => exact absurd rfl drain
  case setMask => exact actSetMask_gains s p tag pl
  case takeEvent => exact actTakeEvent_gains s p tag pl
  case ackEvent => exact actAckEvent_gains s p tag pl
  case define => exact actDefine_gains s p tag pl
  case retire => exact actRetire_gains s p tag pl
  case grant => exact actGrant_gains s p tag pl
  case freeze => exact actFreeze_gains s p tag pl
  case resume => exact actResume_gains s p tag pl
  case claimTally => exact actClaimTally_gains s p tag pl
  case setLimit => exact actSetLimit_gains s p tag pl
  case bind => exact actBind_gains s p tag pl
  case unbind => exact actUnbind_gains s p tag pl
  case post => exact actPost_gains s p tag pl
  case read => exact actRead_gains s p tag pl
  case take => exact actTake_gains s p tag pl
  case exchange => exact actExchange_gains s p tag pl
  case clearFlags => exact actClearFlags_gains s p tag pl
  case claimGroup => exact actClaimGroup_gains s p tag pl
  case setGroup => exact actSetGroup_gains s p tag pl
  case close => exact actClose_gains s p tag pl
  case groupStatus => exact actGroupStatus_gains s p tag pl
  case snapList => exact actSnapList_gains s p tag pl
  case readSnap => exact actReadSnap_gains s p tag pl
  case release => exact actRelease_gains s p tag pl

/-- A frame is taken: the slot is WORKING for it, and no other work holds the port (R157). -/
structure Port.Taken (x : Port) (tag : Byte) : Prop where
  slot : x.slot = .working (.request tag)
  resting : x.sessionEnd = none
  idle : x.posting = none

/-- What a block does for a taken frame keeps sessions sound, and a slot to be answered is held by nothing else. -/
def Reply.sound (r : Reply) (p : PortId) : Prop :=
  r.1.SessionsSound ∧ (r.2 ≠ none → (r.1.port p).sessionEnd = none ∧ (r.1.port p).posting = none)

theorem State.SessionsSound.beginSessionEnd (hs : s.SessionsSound) (online : (s.port p).session = .online)
    (idle : (s.port p).posting = none) {w : Work} (held : (Slot.working w).heldBySession) :
    (s.beginSessionEnd p w).SessionsSound :=
  hs.setPort_untorn rfl ⟨fun offline => absurd (online.symm.trans offline) nofun, fun _ => held, absurd idle⟩ online
    (.inr rfl)

theorem actHello_sound (hs : s.SessionsSound) (taken : (s.port p).Taken tag) (pl : List Byte) :
    (actHello s p tag pl).sound p := by
  unfold actHello
  split
  · rename_i offline
    refine ⟨hs.openSession offline, fun _ => ⟨?_, ?_⟩⟩
    · simpa [State.openSession, State.reply] using taken.resting
    · simpa [State.openSession, State.reply] using taken.idle
  · rename_i online
    exact ⟨hs.beginSessionEnd online taken.idle trivial, absurd rfl⟩

theorem actHelloTaken_sound (hs : s.SessionsSound) (taken : (s.port p).Taken tag) (pl : List Byte) :
    (actHelloTaken s p tag pl).sound p := by
  unfold actHelloTaken
  split
  · exact ⟨hs.setPort_slot rfl rfl rfl (absurd taken.resting) (absurd taken.idle), absurd rfl⟩
  · rename_i online
    exact ⟨hs.beginSessionEnd online taken.idle trivial, absurd rfl⟩

theorem actPostTaken_sound (hs : s.SessionsSound) (taken : (s.port p).Taken tag) (online : (s.port p).session = .online)
    (pl : List Byte) : (actPostTaken s p tag pl).sound p := by
  refine ⟨hs.setPort_untorn rfl ⟨?_, absurd taken.resting, fun _ => ⟨online, ?_, .inl taken.resting⟩⟩ online
    (.inl taken.resting), absurd rfl⟩
  · exact (hs.work p).offline
  · show (s.port p).slot.heldByPost
    rw [taken.slot]
    trivial

theorem actDrain_sound (hs : s.SessionsSound) (taken : (s.port p).Taken tag) (pl : List Byte) :
    (actDrain s p tag pl).sound p := by
  unfold actDrain
  split
  · exact ⟨hs, fun _ => ⟨taken.resting, taken.idle⟩⟩
  · exact ⟨hs.setPort_slot rfl rfl rfl (absurd taken.resting) (absurd taken.idle), absurd rfl⟩

theorem servesAs.sound {r : Req} {act : State → PortId → Byte → List Byte → Reply} (serves : servesAs r act)
    (hs : s.SessionsSound) (taken : (s.port p).Taken tag) (online : (s.port p).session = .online ∨ r = .hello)
    (pl : List Byte) : (act s p tag pl).sound p := by
  obtain rfl | ⟨rfl, rfl⟩ | ⟨rfl, rfl⟩ := serves
  · by_cases hello : r = .hello
    · subst hello; exact actHello_sound hs taken pl
    replace online := online.resolve_right hello
    by_cases leave : r = .leave
    · subst leave; exact ⟨hs.beginSessionEnd online taken.idle trivial, absurd rfl⟩
    by_cases drain : r = .drain
    · subst drain; exact actDrain_sound hs taken pl
    have gains := actOf_gains r hello leave drain s p tag pl
    obtain ⟨-, sessionEnd, -, posting⟩ := gains.work p
    exact ⟨hs.of_request gains online taken.resting,
      fun _ => ⟨sessionEnd.trans taken.resting, posting.trans taken.idle⟩⟩
  · exact actHelloTaken_sound hs taken pl
  · exact actPostTaken_sound hs taken (online.resolve_right nofun) pl

theorem Examined.sound (h : Examined s p tag t) (hs : s.SessionsSound) (taken : (s.port p).Taken tag) :
    t.SessionsSound := by
  cases h with
  | refused st => exact hs.respond taken.resting taken.idle tag _
  | answered r pl act t a online _ serves acts =>
    have acted := serves.sound hs taken online pl
    rw [acts] at acted
    obtain ⟨sound, resting, idle⟩ := And.imp id (fun f => f (by simp)) acted
    exact sound.respond resting idle tag a
  | waits r pl act t online _ serves acts =>
    have acted := serves.sound hs taken online pl
    rw [acts] at acted
    exact acted.1

theorem Slot.heldBySession_emptied {l : Slot} (held : l.heldBySession) : l.emptied.heldBySession := by
  cases l <;> exact held

theorem Slot.heldByPost_emptied {l : Slot} (held : l.heldByPost) : l.emptied.heldByPost := by
  cases l <;> exact held

theorem Transacted.sound (h : Transacted s p t) (hs : s.SessionsSound) : t.SessionsSound := by
  have work := hs.work p
  cases h with
  | unheard => exact hs
  | moved y moved =>
    obtain ⟨⟨session, -, sessionEnd, posting, -, view, -, -⟩, slot⟩ := moved
    refine hs.setPort_slot view session sessionEnd (fun ending => ?_) fun waits => ?_
    · rw [sessionEnd] at ending
      rcases slot with same | emptied
      · rw [same]; exact work.ending ending
      · rw [emptied]; exact Slot.heldBySession_emptied (work.ending ending)
    · rw [posting] at waits
      obtain ⟨-, held, -⟩ := work.posting waits
      rcases slot with same | emptied
      · rw [same]; exact ⟨waits, held⟩
      · rw [emptied]; exact ⟨waits, Slot.heldByPost_emptied held⟩
  | taken y tag t taken examined =>
    obtain ⟨⟨session, -, sessionEnd, posting, -, view, -, -⟩, empty, -, slot, -⟩ := taken
    have resting : (s.port p).sessionEnd = none := by
      by_contra ending
      have held := work.ending ending
      rw [empty] at held
      exact held
    have idle : (s.port p).posting = none := by
      by_contra waits
      obtain ⟨-, held, -⟩ := work.posting waits
      rw [empty] at held
      exact held
    have sound : (s.setPort p y).SessionsSound :=
      hs.setPort_slot view session sessionEnd (absurd (sessionEnd.trans resting)) (absurd (posting.trans idle))
    refine examined.sound sound ?_
    rw [State.port_setPort_self]
    exact ⟨slot, sessionEnd.trans resting, posting.trans idle⟩

/-! ## Every step -/

/-- PRSTn# begins the session end of an ONLINE port, or leaves it in progress, and a POST with it (R165). -/
theorem State.SessionsSound.assertPrst (hs : s.SessionsSound) : (s.assertPrst p).SessionsSound := by
  have work := hs.work p
  unfold State.assertPrst
  dsimp only
  split
  · exact hs.setPort_slot rfl rfl rfl work.ending fun waits => ⟨waits, (work.posting waits).2.1⟩
  · split
    · exact hs
    · unfold Port.portReset
      split
      · rename_i offline
        exact hs.setPort_slot rfl rfl rfl (absurd (work.offline offline)) (absurd (hs.idle_of_offline offline))
      · rename_i online
        cases ending : (s.port p).sessionEnd with
        | none =>
          exact hs.setPort_untorn rfl ⟨fun offline => absurd (online.symm.trans offline) nofun, fun _ => trivial,
            fun _ => ⟨online, trivial, .inr rfl⟩⟩ online (.inr rfl)
        | some step =>
          exact hs.setPort_slot rfl rfl ending.symm (fun _ => trivial) fun waits => ⟨waits, trivial⟩

theorem State.SessionsSound.assertReset (s : State) : s.assertReset.SessionsSound := by
  refine State.sessionsSound_iff.mpr fun q => ⟨?_, fun step _ => ?_⟩
  · rw [State.port_assertReset]
    exact ⟨fun _ => rfl, absurd rfl, absurd rfl⟩
  · cases step
    case views => intro h; simp [State.viewEntry, Port.deviceReset, Port.atReset]
    case readers => intro g; simp
    case tallyAdmin => intro u; simp [Tally.cleared]
    case groupAdmin => intro g; simp [Group.atReset]
    case events => trivial

theorem exec_keeps_sessionsSound (c : Instr) (hs : s.SessionsSound) :
    ∃ t, exec c s = .next t ∧ t.SessionsSound := by
  cases port : transactionPort c with
  | some p =>
    obtain ⟨t, acts, transacted⟩ := exec_transacted c s port
    exact ⟨t, acts, transacted.sound hs⟩
  | none =>
    cases c
    case resetAssert => exact ⟨_, rfl, .assertReset s⟩
    case helloOpenSession p => exact ⟨_, rfl, hs.unlessReset hs.openAfterEnd⟩
    case sessionEndViews p => exact ⟨_, rfl, hs.unlessReset (hs.whenDue hs.endViews)⟩
    case sessionEndReaders p => exact ⟨_, rfl, hs.unlessReset (hs.whenDue hs.endReaders)⟩
    case sessionEndTallyAdmin p => exact ⟨_, rfl, hs.unlessReset (hs.whenDue hs.endTallyAdmin)⟩
    case sessionEndGroupAdmin p => exact ⟨_, rfl, hs.unlessReset (hs.whenDue hs.endGroupAdmin)⟩
    case sessionEndEvents p => exact ⟨_, rfl, hs.unlessReset (hs.whenDue hs.endEvents)⟩
    case post p tag pl part =>
      cases part <;> cases port
      exact ⟨_, rfl, hs.unlessReset hs.postNext⟩
    case apply => exact ⟨_, rfl, hs.unlessReset hs.applyNext⟩
    case tick => exact ⟨_, rfl, hs.unlessReset (hs.of_gains s.tickEdge_gains)⟩
    case timedCloseAttempt g => exact ⟨_, rfl, hs.unlessReset (hs.of_gains (s.handleEdge_gains · g))⟩
    case copierStep g => exact ⟨_, rfl, hs.unlessReset (hs.of_gains (s.copierAct_gains · g))⟩
    case closeEnd g =>
      refine ⟨_, rfl, hs.unlessReset ?_⟩
      split
      · exact hs.of_gains (s.endClose_gains · g)
      · exact hs
    case prstAssert p => exact ⟨_, rfl, hs.assertPrst⟩
    case prstRelease p =>
      have work := hs.work p
      exact ⟨_, rfl, hs.setPort_slot rfl rfl rfl work.ending fun waits => ⟨waits, (work.posting waits).2.1⟩⟩
    case resetRelease => exact ⟨_, rfl, hs⟩
    all_goals cases port

/-- Settles O57: a request gives something only to its own port, which is within no session end; each step of a session
end tears its part down before the next is noted; and a session ends with all of it torn down. -/
theorem everyStepKeepsSessionsSound : Obligations.EveryStepKeepsSessionsSound := by
  intro s t hs h
  unfold step at h
  split at h
  · cases h; exact hs
  · rename_i c rest _
    obtain ⟨t', acts, sound⟩ := exec_keeps_sessionsSound (s := s.setPending rest) c hs
    rw [acts] at h
    cases h
    exact sound

end Sys2Proof.Machine

/-! O2: every command answers a next state and leaves the queue alone. What moves tables and postings leaves it
(`State.gainsFor`), and so do the writes of a port's engine. -/

namespace Sys2Proof.Machine

variable {s t : State} {p : PortId} {tag : Byte} {f : State → State}

theorem servesAs.queue {r : Req} {act : State → PortId → Byte → List Byte → Reply} (serves : servesAs r act)
    (s : State) (p : PortId) (tag : Byte) (pl : List Byte) : (act s p tag pl).1.pending = s.pending := by
  obtain rfl | ⟨-, rfl⟩ | ⟨-, rfl⟩ := serves
  · by_cases hello : r = .hello
    · subst hello
      show (actHello s p tag pl).1.pending = _
      unfold actHello
      split <;> rfl
    by_cases leave : r = .leave
    · subst leave; rfl
    by_cases drain : r = .drain
    · subst drain
      show (actDrain s p tag pl).1.pending = _
      unfold actDrain
      split <;> rfl
    exact (actOf_gains r hello leave drain s p tag pl).queue
  · unfold actHelloTaken
    split <;> rfl
  · rfl

theorem Examined.queue (h : Examined s p tag t) : t.pending = s.pending := by
  cases h with
  | refused st => rfl
  | answered r pl act t a _ _ serves acts =>
    have kept := serves.queue s p tag pl
    rwa [acts] at kept
  | waits r pl act t _ _ serves acts =>
    have kept := serves.queue s p tag pl
    rwa [acts] at kept

theorem Transacted.queue (h : Transacted s p t) : t.pending = s.pending := by
  cases h with
  | unheard => rfl
  | moved y _ => rfl
  | taken y tag t _ examined => exact examined.queue

theorem State.unlessReset_queue (acts : (f s).pending = s.pending) : (s.unlessReset f).pending = s.pending := by
  unfold State.unlessReset
  split
  · rfl
  · exact acts

theorem State.whenDue_queue {step : EndStep} (acts : (f s).pending = s.pending) :
    (s.whenDue p step f).pending = s.pending := by
  unfold State.whenDue
  split
  · exact acts
  · rfl

theorem State.endReaders_queue (s : State) (p : PortId) : (s.endReaders p).pending = s.pending := by
  show ((s.leaveRings p (List.finRange 8)).noteStep p (some .tallyAdmin)).pending = _
  rw [State.noteStep, State.pending_setPort]
  exact (s.leaveRings_gains p p (List.finRange 8)).queue

theorem State.endTallyAdmin_queue (s : State) (p : PortId) : (s.endTallyAdmin p).pending = s.pending := by
  unfold State.endTallyAdmin
  rw [State.foldl_vacateTally]
  exact ((s.vacatedTallies_gains _ p).trans (State.postList_gains _ p _)).queue

theorem State.endGroupAdmin_queue (s : State) (p : PortId) : (s.endGroupAdmin p).pending = s.pending := by
  unfold State.endGroupAdmin
  rw [State.foldl_vacateGroup]
  exact ((s.vacatedGroups_gains _ p).trans (State.postList_gains _ p _)).queue

theorem State.openAfterEnd_queue (s : State) (p : PortId) : (s.openAfterEnd p).pending = s.pending := by
  unfold State.openAfterEnd
  split <;> rfl

theorem State.postProgress_queue (s : State) (p : PortId) (w : PostWork) (rest : List (Byte × BitVec 32))
    (sts : List Status) : (s.postProgress p w rest sts).pending = s.pending := by
  unfold State.postProgress
  split
  · rfl
  · dsimp only
    split <;> rfl

theorem State.postNext_queue (s : State) (p : PortId) : (s.postNext p).pending = s.pending := by
  unfold State.postNext
  split
  · rfl
  · split
    · exact s.postProgress_queue p _ _ _
    · have examined := fun h q => (s.examineEntry_gains p p h q).queue
      dsimp only
      split <;> exact (State.postProgress_queue _ p _ _ _).trans (examined _ _)

theorem State.drainDone_queue (s : State) (p : PortId) : (s.drainDone p).pending = s.pending := by
  unfold State.drainDone
  split <;> rfl

theorem State.applyNext_queue (s : State) : s.applyNext.pending = s.pending := by
  unfold State.applyNext
  split
  · rfl
  · rename_i q _
    split
    · rfl
    · rename_i e rest _
      unfold State.serve
      dsimp only
      have applied := (s.applyContribution_gains q e).trans (State.leaveFifo_gains _ q q e rest)
      have answered := ((s.applyContribution e).leaveFifo q e rest).drainDone_queue q
      exact answered.trans applied.queue

theorem State.assertPrst_queue (s : State) (p : PortId) : (s.assertPrst p).pending = s.pending := by
  unfold State.assertPrst
  dsimp only
  split
  · rfl
  · split <;> rfl

/-- Settles O2: a transaction moves links, engines and tables, and so does the part's own work; RESET# asserted keeps
the queue by its definition. -/
theorem everyCommandCompletes : Obligations.EveryCommandCompletes := by
  intro c s
  cases port : transactionPort c with
  | some p =>
    obtain ⟨t, acts, transacted⟩ := exec_transacted c s port
    exact ⟨t, acts, transacted.queue⟩
  | none =>
    cases c
    case resetAssert | resetRelease | prstRelease => exact ⟨_, rfl, rfl⟩
    case prstAssert p => exact ⟨_, rfl, s.assertPrst_queue p⟩
    case helloOpenSession p => exact ⟨_, rfl, State.unlessReset_queue (s.openAfterEnd_queue p)⟩
    case sessionEndViews p => exact ⟨_, rfl, State.unlessReset_queue (State.whenDue_queue rfl)⟩
    case sessionEndReaders p => exact ⟨_, rfl, State.unlessReset_queue (State.whenDue_queue (s.endReaders_queue p))⟩
    case sessionEndTallyAdmin p =>
      exact ⟨_, rfl, State.unlessReset_queue (State.whenDue_queue (s.endTallyAdmin_queue p))⟩
    case sessionEndGroupAdmin p =>
      exact ⟨_, rfl, State.unlessReset_queue (State.whenDue_queue (s.endGroupAdmin_queue p))⟩
    case sessionEndEvents p => exact ⟨_, rfl, State.unlessReset_queue (State.whenDue_queue rfl)⟩
    case post p tag pl part =>
      cases part <;> cases port
      exact ⟨_, rfl, State.unlessReset_queue (s.postNext_queue p)⟩
    case apply => exact ⟨_, rfl, State.unlessReset_queue s.applyNext_queue⟩
    case tick => exact ⟨_, rfl, State.unlessReset_queue rfl⟩
    case timedCloseAttempt g => exact ⟨_, rfl, State.unlessReset_queue (s.handleEdge_gains 0 g).queue⟩
    case copierStep g => exact ⟨_, rfl, State.unlessReset_queue (s.copierAct_gains 0 g).queue⟩
    case closeEnd g =>
      refine ⟨_, rfl, State.unlessReset_queue ?_⟩
      split
      · exact (s.endClose_gains 0 g).queue
      · rfl
    all_goals cases port

end Sys2Proof.Machine

/-! SUPPORT. Bits on a link (R151): what each type of transaction does with the bits that are clocked into it, what the
bytes of a frame spell (R153, R154), and that bits clocked in two pieces are the bits clocked in one. -/

namespace Sys2Proof.Machine

variable {s t : State} {p q : PortId} {first cur fresh : Byte} {settled : Option Response} {rx si a b : List Bool}
  {out m n : Nat} {rises : Bool}

/-! ## Bits of one byte sent over and over, and of a stream -/

@[simp] theorem length_repeatBits (b : Byte) (i n : Nat) : (repeatBits b i n).length = n := by simp [repeatBits]

theorem repeatBits_add (b : Byte) (i m n : Nat) :
    repeatBits b i (m + n) = repeatBits b i m ++ repeatBits b (i + m) n := by
  simp [repeatBits, List.range_add, Nat.add_assoc]

theorem streamBits_add (bs : List Byte) (i m n : Nat) :
    streamBits bs i (m + n) = streamBits bs i m ++ streamBits bs (i + m) n := by
  simp [streamBits, List.range_add, Nat.add_assoc]

theorem repeatBits_statusByte (x : Port) (n : Nat) : repeatBits x.statusByte 0 n = statusOut x n := by
  simp [repeatBits, statusOut]

/-- Bits of one byte, before it is out. -/
theorem repeatBits_within (b : Byte) {i n : Nat} (within : i + n ≤ 8) :
    repeatBits b i n = (List.range n).map fun k => b.getMsbD (i + k) := by
  refine List.map_congr_left fun k inside => ?_
  rw [Nat.mod_eq_of_lt (by have := List.mem_range.mp inside; omega)]

/-- The bits of a STATUS transaction in two pieces: the second goes on with the byte the first left in hand (R152). -/
theorem statusBits_add (cur fresh : Byte) (out m n : Nat) : ∃ cur' out',
    statusLink cur fresh out m = .status cur' out' ∧
    statusBits cur fresh out (m + n) = statusBits cur fresh out m ++ statusBits cur' fresh out' n ∧
    statusLink cur fresh out (m + n) = statusLink cur' fresh out' n := by
  by_cases within : out + m ≤ 8
  · refine ⟨cur, out + m, if_pos within, ?_, ?_⟩
    · simp [statusBits, List.range_add, Nat.add_assoc]
    · simp [statusLink, Nat.add_assoc]
  · refine ⟨fresh, (out + m - 1) % 8 + 1, if_neg within, ?_, ?_⟩
    · simp only [statusBits, List.range_add, List.map_append, List.map_map, List.append_cancel_left_eq]
      refine List.map_congr_left fun k _ => ?_
      have later : ¬out + (m + k) < 8 := by omega
      have place : ((out + m - 1) % 8 + 1 + k) % 8 = (out + (m + k)) % 8 := by omega
      simp only [Function.comp_apply, if_neg later, place]
      split
      · rw [← place, Nat.mod_eq_of_lt ‹_›]
      · rfl
    · have later : ¬out + (m + n) ≤ 8 := by omega
      simp only [statusLink, if_neg later]
      split
      · congr 1; omega
      · congr 1; omega

/-! ## Writing SOn and the link state of a port -/

/-- Bits were driven on SOn and the link state moved. -/
def State.linked (s : State) (p : PortId) (so : List Bool) (link : LinkState) : State :=
  s.setPort p { s.port p with so := so, link := link }

section
variable (s p) (so so' : List Bool) (link link' : LinkState)

theorem State.port_linked_self : (s.linked p so link).port p =
    ({ s.port p with so := so, link := link } : Port).driveAlert := State.port_setPort_self s p _

@[simp] theorem State.so_linked : ((s.linked p so link).port p).so = so := by simp [State.linked]
@[simp] theorem State.link_linked : ((s.linked p so link).port p).link = link := by simp [State.linked]
@[simp] theorem State.slot_linked : ((s.linked p so link).port p).slot = (s.port p).slot := by simp [State.linked]
@[simp] theorem State.reason_linked : ((s.linked p so link).port p).reason = (s.port p).reason := by simp [State.linked]
@[simp] theorem State.prst_linked : ((s.linked p so link).port p).prst = (s.port p).prst := by simp [State.linked]
@[simp] theorem State.resetPin_linked : (s.linked p so link).resetPin = s.resetPin := rfl

/-- A write of a port whose SOn and link state were just written, and that writes both again. -/
theorem State.setPort_linked {x y : Port} (same : y = { x with alert := y.alert }) :
    (s.linked p so link).setPort p y = s.setPort p x := by
  rw [State.linked, State.setPort_setPort, State.setPort, State.setPort, Port.driveAlert_congr same]

@[simp] theorem State.linked_linked : (s.linked p so link).linked p so' link' = s.linked p so' link' := by
  rw [State.linked, State.port_linked_self]
  exact s.setPort_linked p so link rfl

/-- SOn and the link state alone move. -/
theorem State.linked_leaves : (s.port p).sameButLink ((s.linked p so link).port p) ∧
    s.samePortsBut (s.linked p so link) p ∧ s.sameBehindPorts (s.linked p so link) := by
  refine ⟨?_, fun q other => State.port_setPort_ne s p q _ other, s.sameBehindPorts_setPort p _⟩
  rw [State.port_linked_self]
  exact ⟨rfl, rfl, rfl, rfl, rfl, rfl, rfl, rfl, rfl, rfl⟩

theorem State.linked_follows : ((s.linked p so link).port p).AlertFollows := by
  rw [State.port_linked_self]
  exact Port.driveAlert_alertFollows _

end

theorem State.statusByte_linked (follows : (s.port p).AlertFollows) (so : List Bool) (link : LinkState) :
    ((s.linked p so link).port p).statusByte = (s.port p).statusByte := by
  rw [State.port_linked_self]
  exact Port.statusByte_of_follows follows so link

theorem State.selectFall_eq (s : State) (p : PortId) :
    s.selectFall p = s.linked p [] (.typing (s.port p).statusByte (s.port p).slot.settled []) := rfl

theorem State.clockTyping_eq (s : State) (p : PortId) (first : Byte) (rx : List Bool) (l : LinkState) (n : Nat) :
    s.clockTyping p first rx l n = s.linked p ((s.port p).so ++ repeatBits first rx.length n) l := rfl

/-! ## What each type does with its bits -/

theorem State.clockTyped_status_eq (h : (s.port p).link = .status cur out) : s.clockTyped p si rises =
    s.linked p ((s.port p).so ++ statusBits cur (s.port p).statusByte out si.length)
      (if rises then .idle else statusLink cur (s.port p).statusByte out si.length) :=
  State.clockTyped_status si rises h

theorem State.clockTyped_fetch (h : (s.port p).link = .fetch settled out) : s.clockTyped p si rises =
    s.setPort p { s.port p with
      so := (s.port p).so ++ streamBits (fetchStream settled) out si.length
      slot := if rises && fetchComplete settled (out + si.length) then (s.port p).slot.emptied else (s.port p).slot
      link := if rises then .idle else .fetch settled (out + si.length) } := by
  simp only [State.clockTyped, h]

theorem State.clockTyped_request_low (h : (s.port p).link = .request first rx) : s.clockTyped p si false =
    s.linked p ((s.port p).so ++ repeatBits first rx.length si.length) (.request first (rx ++ si)) := by
  simp only [State.clockTyped, h, State.linked, Bool.false_eq_true, if_false]

theorem State.clockTyped_request_high (h : (s.port p).link = .request first rx) : s.clockTyped p si true =
    (s.linked p ((s.port p).so ++ repeatBits first rx.length si.length) .idle).endFrame p (parseFrame (rx ++ si))
      (·.examineFrame p ·) := by
  simp only [State.clockTyped, h, State.linked, if_true]

theorem State.clockTyped_unknown (h : (s.port p).link = .unknown) : s.clockTyped p si rises =
    s.setPort p { s.port p with
      so := (s.port p).so ++ List.replicate si.length false
      link := if rises then .idle else .unknown
      reason := if rises then .type else (s.port p).reason } := by
  simp only [State.clockTyped, h]

theorem State.clockTyped_abandoned (h : (s.port p).link = .abandoned) : s.clockTyped p si rises =
    s.linked p ((s.port p).so ++ List.replicate si.length false) (if rises then .idle else .abandoned) := by
  simp only [State.clockTyped, h, State.linked]

/-- A command on a port whose select is still low clocks all its bits into the open transaction (log entry 7). -/
theorem State.transact_open (awake : s.resetPin = false) (opened : (s.port p).link ≠ .idle) :
    s.transact p si rises = s.clock p si rises := by
  rw [State.transact, awake, if_neg Bool.false_ne_true, if_neg opened]

theorem State.transact_typed (awake : s.resetPin = false) (opened : (s.port p).link ≠ .idle)
    (typed : ∀ first settled rx, (s.port p).link ≠ .typing first settled rx) :
    s.transact p si rises = s.clockTyped p si rises := by
  rw [State.transact_open awake opened, State.clock_typed typed]

/-- A transaction from its select fall, its type byte among its bits (R151). -/
theorem State.transact_fall (awake : s.resetPin = false) (idle : (s.port p).link = .idle) (ty : Byte) :
    s.transact p (byteBits ty ++ si) rises =
      (s.linked p (statusOut (s.port p) 8) (.ofType ty (s.port p).statusByte (s.port p).slot.settled)).clockTyped p si
        rises := by
  rw [State.transact_idle awake idle, ← repeatBits_statusByte]
  rfl

/-! ## Bits in two pieces (R151) -/

theorem LinkState.ofType_ne_idle (ty first : Byte) (settled : Option Response) :
    LinkState.ofType ty first settled ≠ .idle := by
  unfold LinkState.ofType
  split
  · exact nofun
  · split
    · exact nofun
    · split <;> exact nofun

theorem LinkState.ofType_ne_typing (ty first : Byte) (settled : Option Response) (first' : Byte)
    (settled' : Option Response) (rx : List Bool) : LinkState.ofType ty first settled ≠ .typing first' settled' rx := by
  unfold LinkState.ofType
  split
  · exact nofun
  · split
    · exact nofun
    · split <;> exact nofun

theorem State.clockTyped_fetch_low (h : (s.port p).link = .fetch settled out) : s.clockTyped p si false =
    s.linked p ((s.port p).so ++ streamBits (fetchStream settled) out si.length) (.fetch settled (out + si.length)) :=
  State.clockTyped_fetch h

theorem State.clockTyped_unknown_low (h : (s.port p).link = .unknown) : s.clockTyped p si false =
    s.linked p ((s.port p).so ++ List.replicate si.length false) .unknown :=
  State.clockTyped_unknown h

/-- A transaction whose type is known, in two pieces. -/
theorem State.clockTyped_append (follows : (s.port p).AlertFollows) (a b : List Bool) (rises : Bool) :
    (s.clockTyped p a false).clockTyped p b rises = s.clockTyped p (a ++ b) rises := by
  cases link : (s.port p).link with
  | idle | typing => simp only [State.clockTyped, link]
  | status cur out =>
    obtain ⟨cur', out', kept, bits, last⟩ := statusBits_add cur (s.port p).statusByte out a.length b.length
    rw [State.clockTyped_status_eq link, if_neg Bool.false_ne_true, kept,
      State.clockTyped_status_eq (State.link_linked ..), State.linked_linked, State.statusByte_linked follows,
      State.so_linked, State.clockTyped_status_eq link, List.length_append, bits, last, List.append_assoc]
  | request first rx =>
    have out : (s.port p).so ++ repeatBits first rx.length a.length ++ repeatBits first (rx ++ a).length b.length =
        (s.port p).so ++ repeatBits first rx.length (a ++ b).length := by
      rw [List.length_append, List.length_append, repeatBits_add, List.append_assoc]
    rw [State.clockTyped_request_low link]
    cases rises
    · rw [State.clockTyped_request_low (State.link_linked ..), State.linked_linked, State.so_linked, out,
        List.append_assoc, State.clockTyped_request_low link]
    · rw [State.clockTyped_request_high (State.link_linked ..), State.linked_linked, State.so_linked, out,
        List.append_assoc, State.clockTyped_request_high link]
  | fetch settled out =>
    rw [State.clockTyped_fetch_low link, State.clockTyped_fetch (State.link_linked ..), State.clockTyped_fetch link,
      State.so_linked, State.slot_linked, List.append_assoc, ← streamBits_add, ← List.length_append, Nat.add_assoc,
      ← List.length_append]
    exact State.setPort_linked s p _ _ (by rw [State.port_linked_self]; rfl)
  | unknown =>
    rw [State.clockTyped_unknown_low link, State.clockTyped_unknown (State.link_linked ..),
      State.clockTyped_unknown link, State.so_linked, State.reason_linked, List.append_assoc, ← List.replicate_add,
      ← List.length_append]
    exact State.setPort_linked s p _ _ (by rw [State.port_linked_self]; rfl)
  | abandoned =>
    rw [State.clockTyped_abandoned link, if_neg Bool.false_ne_true, State.clockTyped_abandoned (State.link_linked ..),
      State.linked_linked, State.so_linked, State.clockTyped_abandoned link, List.append_assoc, ← List.replicate_add,
      ← List.length_append]

/-- While the select stays low a transaction whose type is known stays one. -/
theorem State.clockTyped_low (opened : (s.port p).link ≠ .idle)
    (typed : ∀ first settled rx, (s.port p).link ≠ .typing first settled rx) (si : List Bool) :
    ∃ so link, s.clockTyped p si false = s.linked p so link ∧ link ≠ .idle ∧
      ∀ first settled rx, link ≠ .typing first settled rx := by
  cases link : (s.port p).link with
  | idle => exact absurd link opened
  | typing => exact absurd link (typed _ _ _)
  | status cur out =>
    obtain ⟨cur', out', kept, -⟩ := statusBits_add cur (s.port p).statusByte out si.length 0
    rw [State.clockTyped_status_eq link, if_neg Bool.false_ne_true, kept]
    exact ⟨_, _, rfl, nofun, nofun⟩
  | request => rw [State.clockTyped_request_low link]; exact ⟨_, _, rfl, nofun, nofun⟩
  | fetch => rw [State.clockTyped_fetch_low link]; exact ⟨_, _, rfl, nofun, nofun⟩
  | unknown => rw [State.clockTyped_unknown_low link]; exact ⟨_, _, rfl, nofun, nofun⟩
  | abandoned => rw [State.clockTyped_abandoned link]; exact ⟨_, _, rfl, nofun, nofun⟩

/-- Bits that complete a type byte make the transaction one of that type, from which it goes on (R151). -/
theorem State.typed_low (w : State) (p : PortId) (so : List Bool) (ty first : Byte) (settled : Option Response)
    (si : List Bool) : ∃ so' link,
    (w.linked p so (.ofType ty first settled)).clockTyped p si false = w.linked p so' link ∧ link ≠ .idle ∧
      ∀ first settled rx, link ≠ .typing first settled rx := by
  obtain ⟨so', link, low, rest⟩ := State.clockTyped_low (s := w.linked p so (.ofType ty first settled)) (p := p)
    (by rw [State.link_linked]; exact LinkState.ofType_ne_idle _ _ _)
    (by rw [State.link_linked]; exact LinkState.ofType_ne_typing _ _ _) si
  exact ⟨so', link, low.trans (State.linked_linked ..), rest⟩

/-- While the select stays low a transaction stays open, and SOn and the link state alone move. -/
theorem State.clock_low (opened : (s.port p).link ≠ .idle) (si : List Bool) :
    ∃ so link, s.clock p si false = s.linked p so link ∧ link ≠ .idle := by
  by_cases typed : ∀ first settled rx, (s.port p).link ≠ .typing first settled rx
  · obtain ⟨so, link, low, opened', -⟩ := State.clockTyped_low opened typed si
    exact ⟨so, link, (State.clock_typed typed).trans low, opened'⟩
  · simp only [not_forall, not_not] at typed
    obtain ⟨first, settled, rx, link⟩ := typed
    by_cases short : (rx ++ si).length < 8
    · exact ⟨_, _, State.clock_short link short, nofun⟩
    · obtain ⟨so, link', low, opened', -⟩ := s.typed_low p ((s.port p).so ++ repeatBits first rx.length (8 - rx.length))
        (bitsByte ((rx ++ si).take 8)) first settled ((rx ++ si).drop 8)
      exact ⟨so, link', (State.clock_complete link (not_lt.mp short)).trans low, opened'⟩

/-- The bits of an open transaction in two pieces, within its type byte or after it. -/
theorem State.clock_append (follows : (s.port p).AlertFollows) (a b : List Bool) (rises : Bool) :
    (s.clock p a false).clock p b rises = s.clock p (a ++ b) rises := by
  by_cases typed : ∀ first settled rx, (s.port p).link ≠ .typing first settled rx
  · by_cases idle : (s.port p).link = .idle
    · have still : ∀ si rises, s.clock p si rises = s := fun si rises => by
        rw [State.clock_typed typed]
        simp only [State.clockTyped, idle]
      rw [still, still, still]
    · obtain ⟨so, link, low, -, typed'⟩ := State.clockTyped_low idle typed a
      rw [State.clock_typed typed, State.clock_typed typed, ← State.clockTyped_append follows, low]
      exact State.clock_typed (by simpa using typed')
  · simp only [not_forall, not_not] at typed
    obtain ⟨first, settled, rx, link⟩ := typed
    have joined : ∀ n, (s.port p).so ++ repeatBits first rx.length a.length ++ repeatBits first (rx ++ a).length n =
        (s.port p).so ++ repeatBits first rx.length (a.length + n) := fun n => by
      rw [List.length_append, repeatBits_add, List.append_assoc]
    by_cases short : (rx ++ a).length < 8
    · rw [State.clock_short link short, State.clockTyping_eq, if_neg Bool.false_ne_true]
      have link' := s.link_linked p ((s.port p).so ++ repeatBits first rx.length a.length)
        (.typing first settled (rx ++ a))
      by_cases short' : (rx ++ a ++ b).length < 8
      · rw [State.clock_short link' short', State.clock_short link (by rwa [← List.append_assoc]),
          State.clockTyping_eq, State.clockTyping_eq, State.linked_linked, State.so_linked, joined, List.length_append,
          List.append_assoc]
      · have whole : a.length + (8 - (rx ++ a).length) = 8 - rx.length := by
          rw [List.length_append] at short ⊢
          omega
        rw [State.clock_complete link' (not_lt.mp short'),
          State.clock_complete link (by rw [← List.append_assoc]; exact not_lt.mp short'),
          State.clockTyping_eq, State.clockTyping_eq, State.linked_linked, State.so_linked, joined, whole,
          List.append_assoc]
    · have complete := not_lt.mp short
      have more : 8 ≤ (rx ++ (a ++ b)).length := by
        rw [← List.append_assoc, List.length_append]
        omega
      rw [State.clock_complete link complete, State.clock_complete link more, State.clockTyping_eq,
        State.clockTyping_eq, ← List.append_assoc, List.take_append_of_le_length complete,
        List.drop_append_of_le_length complete, ← State.clockTyped_append (State.linked_follows ..)]
      obtain ⟨so, link', low, -, typed'⟩ := s.typed_low p ((s.port p).so ++ repeatBits first rx.length (8 - rx.length))
        (bitsByte ((rx ++ a).take 8)) first settled ((rx ++ a).drop 8)
      rw [low]
      exact State.clock_typed (by rw [State.link_linked]; exact typed')

/-- A transaction in two pieces with nothing between them is the transaction of all their bits (R151). -/
theorem State.transact_append (awake : s.resetPin = false) (idle : (s.port p).link = .idle) (a b : List Bool)
    (rises : Bool) : (s.transact p a false).transact p b rises = s.transact p (a ++ b) rises := by
  have fell : ∀ si rises, s.transact p si rises = (s.selectFall p).clock p si rises := fun si rises => by
    rw [State.transact, awake, if_neg Bool.false_ne_true, if_pos idle]
  obtain ⟨so, link, low, opened⟩ := State.clock_low (s := s.selectFall p) (p := p)
    (by rw [State.selectFall_eq, State.link_linked]; exact nofun) a
  have follows : ((s.selectFall p).port p).AlertFollows := s.linked_follows p _ _
  rw [fell, fell, ← State.clock_append follows, low]
  exact State.transact_open awake (by rwa [State.link_linked])

/-! ## Frames (R153, R154) -/

theorem byteBits_bitsByte : ∀ a b c d e f g h : Bool,
    byteBits (bitsByte [a, b, c, d, e, f, g, h]) = [a, b, c, d, e, f, g, h] := by
  decide +kernel

@[simp] theorem bytesBits_nil : bytesBits [] = [] := rfl

@[simp] theorem bytesBits_cons (b : Byte) (bs : List Byte) : bytesBits (b :: bs) = byteBits b ++ bytesBits bs := rfl

theorem bitsToBytes_byteBits (b : Byte) (l : List Bool) :
    bitsToBytes (byteBits b ++ l) = (bitsToBytes l).map (b :: ·) := by
  have spelled := bitsByte_byteBits b
  show (bitsToBytes l).map (bitsByte (byteBits b) :: ·) = _
  rw [spelled]

/-- The bits of some bytes spell the bytes. -/
theorem bitsToBytes_bytesBits (bs : List Byte) : bitsToBytes (bytesBits bs) = some bs := by
  induction bs with
  | nil => rfl
  | cons b bs ih => rw [bytesBits_cons, bitsToBytes_byteBits, ih]; rfl

/-- Bits that spell bytes are the bits of the bytes. -/
theorem bytesBits_of_bitsToBytes {l : List Bool} {bs : List Byte} (h : bitsToBytes l = some bs) : l = bytesBits bs := by
  induction l using bitsToBytes.induct generalizing bs with
  | case1 => cases h; rfl
  | case2 a b c d e f g k rest ih =>
    rw [bitsToBytes] at h
    obtain ⟨bs', spelled, rfl⟩ := Option.map_eq_some_iff.mp h
    rw [bytesBits_cons, byteBits_bitsByte, ← ih spelled]
    rfl
  | case3 l empty eight =>
    rw [bitsToBytes.eq_3 l empty eight] at h
    cases h

/-- The bits after the type byte are a frame's: its header, its payload of the declared length, its check byte
(R154). -/
def spellsFrame (bits : List Bool) (tag code len : Byte) (body : List Byte) (chk : Byte) : Prop :=
  bits = bytesBits (tag :: code :: len :: (body ++ [chk])) ∧ len.toNat ≤ 120 ∧ body.length = len.toNat

/-- Bits that pass the LENGTH test are tested by their check byte (R154). -/
theorem parseFrame_spelled {bits : List Bool} {tag code len chk : Byte} {body : List Byte}
    (h : spellsFrame bits tag code len body chk) : parseFrame bits =
      if chk = crc8 (tag :: code :: len :: body) then .ok ⟨tag, code, body⟩ else .error .check := by
  obtain ⟨rfl, range, length⟩ := h
  have fits : len.toNat ≤ Config.maxPayload ∧ (body ++ [chk]).length = len.toNat + 1 := ⟨range, by simp [length]⟩
  simp only [parseFrame, bitsToBytes_bytesBits, if_pos fits, List.dropLast_concat, List.getLast?_concat,
    Option.some_inj]

/-- Bits that are no frame's fail the LENGTH test (R154). -/
theorem parseFrame_unspelled {bits : List Bool} (h : ¬∃ tag code len body chk, spellsFrame bits tag code len body chk) :
    parseFrame bits = .error .length := by
  unfold parseFrame
  split
  · rename_i tag code len rest spelled
    split
    · rename_i fits
      obtain ⟨range, length⟩ := fits
      obtain ⟨body, chk, rfl⟩ : ∃ body chk, rest = body ++ [chk] :=
        (List.eq_nil_or_concat' rest).resolve_left fun empty => by rw [empty] at length; cases length
      exact absurd ⟨tag, code, len, body, chk, bytesBits_of_bitsToBytes spelled, range, by simpa using length⟩ h
    · rfl
  · rfl

theorem parseFrame_bytes {f : Frame} (fits : f.payload.length ≤ 120) : parseFrame (bytesBits f.bytes) = .ok f := by
  have length : f.payload.length = (byteOf f.payload.length).toNat := (byteOf_toNat (by omega)).symm
  have spells : spellsFrame (bytesBits f.bytes) f.tag f.code (byteOf f.payload.length) f.payload (crc8 f.covered) :=
    ⟨rfl, length ▸ fits, length⟩
  rw [parseFrame_spelled spells]
  exact if_pos rfl

end Sys2Proof.Machine

/-! O7: what a FETCH shifts out, and what it makes of the slot. -/

namespace Sys2Proof.Machine

variable {s : State} {p : PortId} {settled : Option Response} {out n : Nat} {rises : Bool}

/-- A FETCH transaction after `bits` of its bits: SOn, the link state and, once all of the settled response is out and
the select rises, the slot are written (R158, R159). -/
def State.fetched (s : State) (p : PortId) (so : List Bool) (settled : Option Response) (bits : Nat) (rises : Bool) :
    State :=
  s.setPort p { s.port p with
    so := so
    slot := if rises && fetchComplete settled bits then (s.port p).slot.emptied else (s.port p).slot
    link := if rises then .idle else .fetch settled bits }

/-- FETCH from its select fall: the status byte, then the settled response or the marker (R158, R167). -/
theorem exec_fetch_idle (awake : s.resetPin = false) (idle : (s.port p).link = .idle) :
    let r := (s.port p).slot.settled
    exec (.fetch p n rises) s =
      .next (s.fetched p (statusOut (s.port p) 8 ++ streamBits (fetchStream r) 0 n) r n rises) := by
  show Host.Outcome.next (s.transact p (byteBits typeFetch ++ List.replicate n false) rises) = _
  have link : LinkState.ofType typeFetch (s.port p).statusByte (s.port p).slot.settled =
      .fetch (s.port p).slot.settled 0 := rfl
  rw [State.transact_fall awake idle, link, State.clockTyped_fetch (State.link_linked ..), State.so_linked,
    State.slot_linked, List.length_replicate, Nat.zero_add]
  exact congrArg _ (State.setPort_linked s p _ _ (by rw [State.port_linked_self]; rfl))

/-- FETCH on an open FETCH transaction: all its bits are further bits (log entry 7). -/
theorem exec_fetch_open (awake : s.resetPin = false) (opened : (s.port p).link = .fetch settled out) :
    exec (.fetch p n rises) s = .next (s.fetched p
      ((s.port p).so ++ streamBits (fetchStream settled) out (8 + n)) settled (out + 8 + n) rises) := by
  show Host.Outcome.next (s.transact p (byteBits typeFetch ++ List.replicate n false) rises) = _
  rw [State.transact_typed awake (by simp [opened]) (by simp [opened]), State.clockTyped_fetch opened,
    List.length_append, length_byteBits, List.length_replicate, ← Nat.add_assoc]
  rfl

theorem State.fetched_leaves (s : State) (p : PortId) (so : List Bool) (settled : Option Response) (bits : Nat)
    (rises : Bool) :
    let t := s.fetched p so settled bits rises
    (t.port p).so = so ∧ (t.port p).link = (if rises then .idle else .fetch settled bits) ∧
      (t.port p).slot = (if rises && fetchComplete settled bits then (s.port p).slot.emptied else (s.port p).slot) ∧
      (t.port p).session = (s.port p).session ∧ (t.port p).number = (s.port p).number ∧
      (t.port p).reason = (s.port p).reason ∧ (t.port p).sessionEnd = (s.port p).sessionEnd ∧
      (t.port p).prst = (s.port p).prst ∧ (t.port p).posting = (s.port p).posting ∧
      (s.port p).sameTables (t.port p) ∧ s.samePortsBut t p ∧ s.sameBehindPorts t := by
  intro t
  have here : t.port p = _ := State.port_setPort_self s p _
  rw [here]
  exact ⟨rfl, rfl, rfl, rfl, rfl, rfl, rfl, rfl, rfl, ⟨rfl, rfl, rfl⟩,
    fun q other => State.port_setPort_ne s p q _ other, s.sameBehindPorts_setPort p _⟩

theorem fetchComplete_iff {r : Response} {bits : Nat} :
    fetchComplete (some r) bits = true ↔ 8 * (r.payload.length + 5) ≤ bits := by
  have length : r.bytes.length = r.payload.length + 5 := by simp [Response.bytes, Response.covered]
  simp [fetchComplete, length]

theorem Slot.settled_eq_none {l : Slot} (unready : ∀ r, l ≠ .ready r) : l.settled = none := by
  cases l with
  | ready r => exact absurd rfl (unready r)
  | _ => rfl

/-- Settles O7: the clauses are the two forms of FETCH, the first with a response and without one. -/
theorem fetchShiftsTheSettledResponse : Obligations.FetchShiftsTheSettledResponse := by
  intro s p n rises awake
  refine ⟨fun r idle ready => ?_, fun idle unready => ?_, fun settled out opened => ?_⟩
  · have acts := exec_fetch_idle (n := n) (rises := rises) awake idle
    rw [ready] at acts
    obtain ⟨so, link, slot, session, number, reason, sessionEnd, prst, posting, tables, ports, behind⟩ :=
      s.fetched_leaves p (statusOut (s.port p) 8 ++ streamBits (fetchStream (some r)) 0 n) (some r) n rises
    refine ⟨_, acts, so, ?_, fun up => ?_, fun low => ?_, session, number, reason, sessionEnd, prst, posting, tables,
      ports, behind⟩
    · exact slot.trans (by simp only [ready, Slot.emptied, Bool.and_eq_true, fetchComplete_iff])
    · exact link.trans (if_pos up)
    · exact link.trans (if_neg (by simp [low]))
  · have acts := exec_fetch_idle (n := n) (rises := rises) awake idle
    rw [Slot.settled_eq_none unready] at acts
    obtain ⟨so, link, slot, session, number, reason, sessionEnd, prst, posting, tables, ports, behind⟩ :=
      s.fetched_leaves p (statusOut (s.port p) 8 ++ streamBits (fetchStream none) 0 n) none n rises
    refine ⟨_, acts, so, fun up => ?_, fun low => ?_, ?_, ports, behind⟩
    · exact link.trans (if_pos up)
    · exact link.trans (if_neg (by simp [low]))
    · exact ⟨session, number, sessionEnd, posting, prst, slot.trans (by simp [fetchComplete]), reason, tables⟩
  · obtain ⟨so, link, slot, session, number, reason, sessionEnd, prst, posting, tables, ports, behind⟩ :=
      s.fetched_leaves p ((s.port p).so ++ streamBits (fetchStream settled) out (8 + n)) settled (out + 8 + n) rises
    refine ⟨_, exec_fetch_open awake opened, so, fun up r whole enough held => ?_, fun kept => ?_, link, session,
      number, sessionEnd, prst, reason, posting, tables, ports, behind⟩
    · obtain ⟨r', ready⟩ := held
      refine slot.trans ?_
      rw [if_pos (by rw [whole, up]; simpa [fetchComplete_iff] using enough), ready]
      rfl
    · refine slot.trans (if_neg ?_)
      rw [Bool.and_eq_true]
      rintro ⟨up, complete⟩
      rcases kept with low | none | ⟨r, some, short⟩
      · rw [low] at up; cases up
      · rw [none] at complete; cases complete
      · rw [some, fetchComplete_iff] at complete
        omega

end Sys2Proof.Machine

/-! O8: transactions of unknown type, without a type and abandoned ones, and bits in pieces. -/

namespace Sys2Proof.Machine

variable {s : State} {p : PortId} {first : Byte} {settled : Option Response} {rx si : List Bool} {n : Nat}
  {rises : Bool}

/-! ## Unknown types (R151) -/

/-- A transaction of unknown type after some of its bits: TYPE is latched at the select high (R151). -/
def State.untyped (s : State) (p : PortId) (so : List Bool) (rises : Bool) : State :=
  s.setPort p { s.port p with
    so := so
    link := if rises then .idle else .unknown
    reason := if rises then .type else (s.port p).reason }

theorem LinkState.ofType_unknown {ty : Byte} (unknown : typeByteKnown ty = false) (first : Byte)
    (settled : Option Response) : LinkState.ofType ty first settled = .unknown := by
  simp only [typeByteKnown, Bool.or_eq_false_iff, beq_eq_false_iff_ne] at unknown
  obtain ⟨⟨status, request⟩, fetch⟩ := unknown
  exact (if_neg status).trans ((if_neg request).trans (if_neg fetch))

theorem exec_unknownType_idle {ty : Byte} (awake : s.resetPin = false) (idle : (s.port p).link = .idle)
    (unknown : typeByteKnown ty = false) : exec (.unknownType p ty n rises) s =
      .next (s.untyped p (statusOut (s.port p) 8 ++ List.replicate n false) rises) := by
  show Host.Outcome.next (s.transact p (byteBits ty ++ List.replicate n false) rises) = _
  rw [State.transact_fall awake idle, LinkState.ofType_unknown unknown, State.clockTyped_unknown (State.link_linked ..),
    State.so_linked, State.reason_linked, List.length_replicate]
  exact congrArg _ (State.setPort_linked s p _ _ (by rw [State.port_linked_self]; rfl))

theorem exec_unknownType_open (awake : s.resetPin = false) (opened : (s.port p).link = .unknown) (ty : Byte) :
    exec (.unknownType p ty n rises) s =
      .next (s.untyped p ((s.port p).so ++ List.replicate (8 + n) false) rises) := by
  show Host.Outcome.next (s.transact p (byteBits ty ++ List.replicate n false) rises) = _
  rw [State.transact_typed awake (by simp [opened]) (by simp [opened]), State.clockTyped_unknown opened,
    List.length_append, length_byteBits, List.length_replicate]
  rfl

theorem State.untyped_leaves (s : State) (p : PortId) (so : List Bool) (rises : Bool) :
    let t := s.untyped p so rises
    (t.port p).so = so ∧ (t.port p).reason = (if rises then .type else (s.port p).reason) ∧
      (t.port p).link = (if rises then .idle else .unknown) ∧ (t.port p).slot = (s.port p).slot ∧
      (t.port p).session = (s.port p).session ∧ (t.port p).number = (s.port p).number ∧
      (t.port p).sessionEnd = (s.port p).sessionEnd ∧ (t.port p).prst = (s.port p).prst ∧
      (t.port p).posting = (s.port p).posting ∧ (s.port p).sameTables (t.port p) ∧ s.samePortsBut t p ∧
      s.sameBehindPorts t := by
  intro t
  have here : t.port p = _ := State.port_setPort_self s p _
  rw [here]
  exact ⟨rfl, rfl, rfl, rfl, rfl, rfl, rfl, rfl, rfl, ⟨rfl, rfl, rfl⟩,
    fun q other => State.port_setPort_ne s p q _ other, s.sameBehindPorts_setPort p _⟩

/-! ## Transactions without a type, and abandoned ones (R151, R155) -/

/-- Bits that do not complete a type byte (R151). -/
theorem exec_transactionWithoutType_short (awake : s.resetPin = false)
    (opened : (s.port p).link = .typing first settled rx) (short : (rx ++ si).length < 8) :
    exec (.transactionWithoutType p ⟨si, rises⟩) s =
      .next (s.linked p ((s.port p).so ++ repeatBits first rx.length si.length)
        (if rises then .idle else .typing first settled (rx ++ si))) := by
  show Host.Outcome.next (s.transact p si rises) = _
  rw [State.transact_open awake (by simp [opened]), State.clock_short opened short, State.clockTyping_eq]

/-- A transaction from its select fall whose bits do not complete a type byte (R151). -/
theorem exec_transactionWithoutType_idle (awake : s.resetPin = false) (idle : (s.port p).link = .idle)
    (short : si.length < 8) : exec (.transactionWithoutType p ⟨si, rises⟩) s =
      .next (s.linked p (statusOut (s.port p) si.length)
        (if rises then .idle else .typing (s.port p).statusByte (s.port p).slot.settled si)) := by
  show Host.Outcome.next (s.transact p si rises) = _
  rw [State.transact, awake, if_neg Bool.false_ne_true, if_pos idle, State.selectFall_eq,
    State.clock_short (State.link_linked ..) (by simpa using short), State.clockTyping_eq, State.linked_linked,
    State.so_linked, List.nil_append, List.nil_append, List.length_nil, repeatBits_statusByte]

theorem exec_abandonedTransactionEnd (awake : s.resetPin = false) (abandoned : (s.port p).link = .abandoned) :
    exec (.abandonedTransactionEnd p n) s = .next (s.linked p ((s.port p).so ++ List.replicate n false) .idle) := by
  show Host.Outcome.next (s.endAbandoned p n) = _
  rw [State.endAbandoned, if_pos abandoned, awake, if_neg Bool.false_ne_true, State.clock_typed (by simp [abandoned]),
    State.clockTyped_abandoned abandoned, if_pos rfl, List.length_replicate]

/-! ## Bits that spell a type byte (R151) -/

theorem exec_status_spelled (awake : s.resetPin = false) (idle : (s.port p).link = .idle) (si : List Bool) :
    exec (.transactionWithoutType p ⟨byteBits 0x3C ++ si, rises⟩) s = exec (.status p si.length rises) s := by
  show Host.Outcome.next (s.transact p (byteBits typeStatus ++ si) rises) =
    .next (s.transact p (byteBits typeStatus ++ List.replicate si.length false) rises)
  have link : LinkState.ofType typeStatus (s.port p).statusByte (s.port p).slot.settled =
      .status (s.port p).statusByte 8 := rfl
  rw [State.transact_fall awake idle, State.transact_fall awake idle, link,
    State.clockTyped_status_eq (State.link_linked ..), State.clockTyped_status_eq (State.link_linked ..),
    List.length_replicate]

theorem exec_fetch_spelled (awake : s.resetPin = false) (idle : (s.port p).link = .idle) (si : List Bool) :
    exec (.transactionWithoutType p ⟨byteBits 0xA5 ++ si, rises⟩) s = exec (.fetch p si.length rises) s := by
  show Host.Outcome.next (s.transact p (byteBits typeFetch ++ si) rises) =
    .next (s.transact p (byteBits typeFetch ++ List.replicate si.length false) rises)
  have link : LinkState.ofType typeFetch (s.port p).statusByte (s.port p).slot.settled =
      .fetch (s.port p).slot.settled 0 := rfl
  rw [State.transact_fall awake idle, State.transact_fall awake idle, link,
    State.clockTyped_fetch (State.link_linked ..), State.clockTyped_fetch (State.link_linked ..), List.length_replicate]

/-- Settles O8: SOn and the link state alone move, and at a select high after an unknown type the reason; pieces are
joined by `State.transact_append`. -/
theorem oddTransactionsChangeAtMostTheReason : Obligations.OddTransactionsChangeAtMostTheReason := by
  intro s p awake onlyLink typeAtHigh
  have linked : ∀ so link, onlyLink (s.linked p so link) := s.linked_leaves p
  refine ⟨fun ty n rises => ⟨fun unknown idle => ?_, fun opened => ?_⟩, fun si rises short idle => ?_,
    fun first settled rx si rises opened short => ?_, fun si rises idle => ?_, fun a b rises idle => ?_,
    fun n abandoned => ?_⟩
  · obtain ⟨so, rest⟩ := s.untyped_leaves p (statusOut (s.port p) 8 ++ List.replicate n false) rises
    exact ⟨_, exec_unknownType_idle awake idle unknown, so, rest⟩
  · obtain ⟨so, rest⟩ := s.untyped_leaves p ((s.port p).so ++ List.replicate (8 + n) false) rises
    exact ⟨_, exec_unknownType_open awake opened ty, so, rest⟩
  · refine ⟨_, exec_transactionWithoutType_idle awake idle short, by simp, fun up => ?_, fun low => ?_, linked _ _⟩
    · rw [State.link_linked, if_pos up]
    · rw [State.link_linked, if_neg (by simp [low])]
      rfl
  · refine ⟨_, exec_transactionWithoutType_short awake opened short, ?_, by simp, linked _ _⟩
    rw [State.so_linked, repeatBits_within]
    simpa using short.le
  · exact ⟨exec_status_spelled awake idle si, exec_fetch_spelled awake idle si, rfl⟩
  · exact ⟨_, rfl, congrArg Host.Outcome.next (State.transact_append awake idle a b rises)⟩
  · exact ⟨_, exec_abandonedTransactionEnd awake abandoned, by simp, by simp, linked _ _⟩

end Sys2Proof.Machine

/-! O5: what the fall and the rise of PRSTn# make of a port. -/

namespace Sys2Proof.Machine

variable {s : State} {p : PortId}

theorem exec_prstAssert (awake : s.resetPin = false) (released : (s.port p).prst = false) :
    exec (.prstAssert p) s = .next (s.setPort p (s.port p).portReset) := by
  show Host.Outcome.next (s.assertPrst p) = _
  rw [State.assertPrst, awake, released]
  rfl

theorem Port.portReset_offline {x : Port} (offline : x.session = .offline) :
    x.portReset = { x with prst := true, link := x.link.cut, slot := .empty } := by
  rw [Port.portReset, offline]

theorem Port.portReset_online {x : Port} (online : x.session = .online) :
    x.portReset = { x with
      prst := true
      link := x.link.cut
      slot := .working .portReset
      sessionEnd := some (x.sessionEnd.getD .views) } := by
  rw [Port.portReset, online]
  cases x.sessionEnd <;> rfl

/-- PRSTn# falls: by the session of the port (R165). -/
theorem exec_prstAssert_port (awake : s.resetPin = false) (released : (s.port p).prst = false) :
    let x := s.port p
    ∃ t, exec (.prstAssert p) s = .next t ∧ (t.port p).prst = true ∧
      (t.port p).link = (if x.link = .idle then .idle else .abandoned) ∧
      (x.session = .offline → (t.port p).slot = .empty ∧ (t.port p).sessionEnd = x.sessionEnd) ∧
      (x.session = .online →
        (t.port p).slot = .working .portReset ∧ (t.port p).sessionEnd = some (x.sessionEnd.getD .views)) ∧
      (t.port p).session = x.session ∧ (t.port p).number = x.number ∧ (t.port p).reason = x.reason ∧
      (t.port p).posting = x.posting ∧ x.sameTables (t.port p) ∧ s.samePortsBut t p ∧ s.sameBehindPorts t := by
  intro x
  refine ⟨_, exec_prstAssert awake released, ?_⟩
  have others : s.samePortsBut (s.setPort p x.portReset) p := fun q other => State.port_setPort_ne s p q _ other
  have behind := s.sameBehindPorts_setPort p x.portReset
  rw [State.port_setPort_self]
  cases session : x.session with
  | offline =>
    rw [Port.portReset_offline session] at others behind ⊢
    exact ⟨rfl, x.link.cut_eq, fun _ => ⟨rfl, rfl⟩, nofun, session, rfl, rfl, rfl, ⟨rfl, rfl, rfl⟩, others, behind⟩
  | online =>
    rw [Port.portReset_online session] at others behind ⊢
    exact ⟨rfl, x.link.cut_eq, nofun, fun _ => ⟨rfl, rfl⟩, session, rfl, rfl, rfl, ⟨rfl, rfl, rfl⟩, others, behind⟩

/-- Settles O5: PRSTn# asserted and PRSTn# released. -/
theorem portResetBeginsASessionEnd : Obligations.PortResetBeginsASessionEnd := by
  intro s p awake
  refine ⟨fun released => ?_, fun _ => ?_⟩
  · obtain ⟨t, acts, prst, link, offline, online, rest⟩ := exec_prstAssert_port awake released
    refine ⟨t, acts, prst, link, offline, fun session => ?_, rest⟩
    obtain ⟨slot, sessionEnd⟩ := online session
    refine ⟨slot, fun none => by rw [sessionEnd, none]; rfl, fun running => ?_⟩
    obtain ⟨step, running⟩ := Option.ne_none_iff_exists'.mp running
    rw [sessionEnd, running]
    rfl
  · refine ⟨s.releasePrst p, rfl, ?_⟩
    have here : (s.releasePrst p).port p = ({ s.port p with prst := false } : Port).driveAlert :=
      State.port_setPort_self ..
    rw [here]
    exact ⟨rfl, rfl, rfl, rfl, rfl, rfl, rfl, rfl, ⟨rfl, rfl, rfl⟩, fun q other => State.port_setPort_ne s p q _ other,
      s.sameBehindPorts_setPort p _⟩

end Sys2Proof.Machine

/-! O9: which test of R154 refuses a frame. -/

namespace Sys2Proof.Machine

variable {s : State} {p : PortId} {si rx bits so out : List Bool} {first : Byte} {rises : Bool}

/-! ## A REQUEST transaction from its select fall, and one that goes on -/

theorem LinkState.ofType_request (first : Byte) (settled : Option Response) :
    LinkState.ofType typeRequest first settled = .request first [] := rfl

/-- The status byte goes out again for each byte, the type byte among them (R151). -/
theorem statusOut_add (x : Port) (n : Nat) : statusOut x 8 ++ repeatBits x.statusByte 0 n = statusOut x (8 + n) := by
  rw [← repeatBits_statusByte, ← repeatBits_statusByte, repeatBits_add]
  congr 1
  exact List.map_congr_left fun k _ => by rw [Nat.zero_add, Nat.zero_add, Nat.add_mod_left]

theorem exec_frameRefused_idle_low (awake : s.resetPin = false) (idle : (s.port p).link = .idle) :
    exec (.frameRefused p si false) s =
      .next (s.linked p (statusOut (s.port p) (8 + si.length)) (.request (s.port p).statusByte si)) := by
  show Host.Outcome.next (s.transact p (byteBits typeRequest ++ si) false) = _
  rw [State.transact_fall awake idle, LinkState.ofType_request, State.clockTyped_request_low (State.link_linked ..),
    State.so_linked, State.linked_linked, List.length_nil, statusOut_add, List.nil_append]

theorem transact_request_high (awake : s.resetPin = false) (idle : (s.port p).link = .idle) :
    s.transact p (byteBits typeRequest ++ si) true =
      (s.linked p (statusOut (s.port p) (8 + si.length)) .idle).endFrame p (parseFrame si) (·.examineFrame p ·) := by
  rw [State.transact_fall awake idle, LinkState.ofType_request, State.clockTyped_request_high (State.link_linked ..),
    State.so_linked, State.linked_linked, List.length_nil, statusOut_add, List.nil_append]

theorem exec_frameRefused_open (awake : s.resetPin = false) (opened : (s.port p).link = .request first rx) :
    exec (.frameRefused p si rises) s = .next (s.clockTyped p (byteBits typeRequest ++ si) rises) := by
  show Host.Outcome.next (s.transact p (byteBits typeRequest ++ si) rises) = _
  rw [State.transact_typed awake (by simp [opened]) (by simp [opened])]

/-! ## Refusals (R156) -/

/-- The frame on port `p` is discarded for the reason `r`: SOn carried `out`, the select is high, and the reason alone
is latched. -/
def State.refusedFor (s t : State) (p : PortId) (out : List Bool) (r : LinkReason) : Prop :=
  (t.port p).reason = r ∧ (t.port p).slot = (s.port p).slot ∧ (t.port p).link = .idle ∧ (t.port p).so = out ∧
    (t.port p).session = (s.port p).session ∧ (t.port p).number = (s.port p).number ∧
    (t.port p).sessionEnd = (s.port p).sessionEnd ∧ (t.port p).posting = (s.port p).posting ∧
    (t.port p).prst = (s.port p).prst ∧ (s.port p).sameTables (t.port p) ∧ s.samePortsBut t p ∧ s.sameBehindPorts t

theorem State.refusedFor_latch (s : State) (p : PortId) (out : List Bool) (r : LinkReason) :
    s.refusedFor ((s.linked p out .idle).latch p r) p out r := by
  obtain ⟨-, others, behind⟩ := s.linked_leaves p out .idle
  rw [State.refusedFor, State.latch, State.port_setPort_self, State.port_linked_self]
  refine ⟨rfl, rfl, rfl, rfl, rfl, rfl, rfl, rfl, rfl, ⟨rfl, rfl, rfl⟩, fun q other => ?_, ?_⟩
  · exact (State.port_setPort_ne _ p q _ other).trans (others q other)
  · exact behind

theorem State.endFrame_prst (f : Except LinkReason Frame) (run : State → Frame → State)
    (held : (s.port p).prst = true) : s.endFrame p f run = s.latch p .type :=
  if_pos held

theorem State.endFrame_error (r : LinkReason) (run : State → Frame → State) (released : (s.port p).prst = false) :
    s.endFrame p (.error r) run = s.latch p r :=
  if_neg (by simp [released])

theorem State.endFrame_busy (f : Frame) (run : State → Frame → State) (released : (s.port p).prst = false)
    (full : (s.port p).slot ≠ .empty) : s.endFrame p (.ok f) run = s.latch p .busy :=
  (if_neg (by simp [released])).trans (if_neg full)

/-- The four tests in the order of R154, at the select high of a transaction whose frame bits are `bits`. -/
theorem State.decides {c : Instr} {run : State → Frame → State}
    (acts : exec c s = .next ((s.linked p out .idle).endFrame p (parseFrame bits) run)) :
    let refused := fun r => ∃ t, exec c s = .next t ∧ s.refusedFor t p out r
    ((s.port p).prst = true → refused .type) ∧
      ((s.port p).prst = false → (¬∃ tag code len body chk, spellsFrame bits tag code len body chk) → refused .length) ∧
      ∀ tag code len body chk, (s.port p).prst = false → spellsFrame bits tag code len body chk →
        (chk ≠ crc8 (tag :: code :: len :: body) → refused .check) ∧
        (chk = crc8 (tag :: code :: len :: body) → (s.port p).slot ≠ .empty → refused .busy) := by
  intro refused
  have pin := s.prst_linked p out .idle
  have latches : ∀ r, (s.linked p out .idle).endFrame p (parseFrame bits) run = (s.linked p out .idle).latch p r →
      refused r := fun r latched => ⟨_, latched ▸ acts, s.refusedFor_latch p out r⟩
  refine ⟨fun held => ?_, fun released unspelled => ?_, fun tag code len body chk released spelled => ⟨?_, ?_⟩⟩
  · exact latches .type (State.endFrame_prst _ run (pin.trans held))
  · rw [parseFrame_unspelled unspelled] at latches
    exact latches .length (State.endFrame_error _ run (pin.trans released))
  · intro bad
    rw [parseFrame_spelled spelled, if_neg bad] at latches
    exact latches .check (State.endFrame_error _ run (pin.trans released))
  · intro good full
    rw [parseFrame_spelled spelled, if_pos good] at latches
    exact latches .busy (State.endFrame_busy _ run (pin.trans released) (by rwa [State.slot_linked]))

/-- Settles O9: the two clauses are a transaction from its select fall and one that goes on. -/
theorem framesAreRefusedByTheFirstFailingTest : Obligations.FramesAreRefusedByTheFirstFailingTest := by
  intro s p si awake
  refine ⟨fun idle => ⟨?_, ?_⟩, fun first rx opened => ⟨?_, ?_⟩⟩
  · exact ⟨_, exec_frameRefused_idle_low awake idle, State.link_linked .., State.so_linked .., s.linked_leaves p _ _⟩
  · exact State.decides (congrArg Host.Outcome.next (transact_request_high awake idle))
  · have acts := (exec_frameRefused_open (si := si) (rises := false) awake opened).trans
      (congrArg _ (State.clockTyped_request_low opened))
    rw [List.length_append, length_byteBits, ← List.append_assoc] at acts
    exact ⟨_, acts, State.link_linked .., State.so_linked .., s.linked_leaves p _ _⟩
  · have acts := (exec_frameRefused_open (si := si) (rises := true) awake opened).trans
      (congrArg _ (State.clockTyped_request_high opened))
    rw [List.length_append, length_byteBits, ← List.append_assoc] at acts
    exact State.decides acts

end Sys2Proof.Machine

/-! O10: the bits of a frame run the request they spell. -/

namespace Sys2Proof.Machine

variable {s : State} {p : PortId} {f : Frame} {run run' : State → Frame → State}

/-- On an idle link SOn alone moves in a transaction before its frame is examined. -/
theorem State.linked_idle (idle : (s.port p).link = .idle) (so : List Bool) :
    s.linked p so .idle = s.driveSo p so := by
  rw [State.linked, State.driveSo, ← idle]

@[simp] theorem length_bytesBits (bs : List Byte) : (bytesBits bs).length = 8 * bs.length := by
  induction bs with
  | nil => rfl
  | cons b bs ih => rw [bytesBits_cons, List.length_append, length_byteBits, ih, List.length_cons]; omega

/-- A frame whose payload fits comes out of its bits as it went in (R153, R154). -/
theorem parseFrame_eq_wholeFrame (fits : f.payload.length ≤ 120) : parseFrame (bytesBits f.bytes) = wholeFrame f := by
  have whole : payloadFits f.payload = true := decide_eq_true fits
  rw [parseFrame_bytes fits, wholeFrame, if_pos whole]

/-- A transaction of the type byte and of the bits of a frame is the frame's transaction (R151, R154). -/
theorem State.transact_frame (fits : f.payload.length ≤ 120) :
    s.transact p (byteBits typeRequest ++ bytesBits f.bytes) true = s.requestTransaction p f (·.examineFrame p ·) := by
  cases reset : s.resetPin with
  | true => rw [State.transact, State.requestTransaction, if_pos reset, if_pos reset]
  | false =>
    by_cases idle : (s.port p).link = .idle
    · have bits : 8 + (bytesBits f.bytes).length = 8 * (1 + f.bytes.length) := by rw [length_bytesBits]; omega
      rw [transact_request_high reset idle, State.linked_idle idle, parseFrame_eq_wholeFrame fits, bits,
        ← repeatBits_statusByte, State.requestTransaction, reset, if_neg Bool.false_ne_true, if_pos idle]
    · rw [State.transact_open reset idle, State.requestTransaction, reset, if_neg Bool.false_ne_true, if_neg idle]

theorem State.endFrame_congr (agree : ∀ s, run s f = run' s f) :
    s.endFrame p (wholeFrame f) run = s.endFrame p (wholeFrame f) run' := by
  unfold wholeFrame
  split
  · simp only [State.endFrame, agree]
  · rfl

theorem State.requestTransaction_congr (agree : ∀ s, run s f = run' s f) :
    s.requestTransaction p f run = s.requestTransaction p f run' := by
  rw [State.requestTransaction, State.requestTransaction, State.endFrame_congr agree]

theorem reqOfCode_reqCode (r : Req) : reqOfCode (reqCode r) = some r := by
  cases r <;> rfl

/-- Examining a frame by its request code is examining it for its request (R157). -/
theorem State.examineFrame_reqCode (s : State) (p : PortId) (r : Req) (tag : Byte) (pl : List Byte) :
    s.examineFrame p ⟨tag, reqCode r, pl⟩ = s.examine p tag r pl (actOf r) := by
  simp only [State.examineFrame, reqOfCode_reqCode]

/-- The command of a request, by the bits of its frame. -/
theorem exec_requestCommand_bits (s : State) (p : PortId) (r : Req) (tag : Byte) {pl : List Byte}
    (fits : pl.length ≤ 120) : exec (requestCommand r p tag pl) s =
      .next (s.transact p (byteBits typeRequest ++ bytesBits (Frame.bytes ⟨tag, reqCode r, pl⟩)) true) := by
  rw [exec_requestCommand, State.request, State.transact_frame (f := ⟨tag, reqCode r, pl⟩) fits]
  exact congrArg _ (State.requestTransaction_congr fun w => (w.examineFrame_reqCode p r tag pl).symm)

/-- Settles O10: in one piece, and in two from an idle link. -/
theorem frameBitsRunTheirRequest : Obligations.FrameBitsRunTheirRequest := by
  intro s p r tag pl fits bits
  have whole := exec_requestCommand_bits s p r tag fits
  refine ⟨whole.symm, fun a b spelled awake idle => ⟨s.transact p (byteBits typeRequest ++ a) false, rfl, ?_⟩⟩
  show Host.Outcome.next ((s.transact p (byteBits typeRequest ++ a) false).transact p b true) = _
  rw [whole, State.transact_append awake idle, List.append_assoc, spelled]

end Sys2Proof.Machine

/-! O11: what the port engine and the first check of each request answer. -/

namespace Sys2Proof.Machine

variable {s : State} {p : PortId} {tag b : Byte} {r : Req} {pl : List Byte} {c : Instr} {st : Status}
  {act : State → PortId → Byte → List Byte → Reply}

/-! ## Which bytes a field accepts -/

theorem indexBelow_isSome {n x : Nat} : (indexBelow n x).isSome = true ↔ x < n := by
  unfold indexBelow
  split <;> simp [*]

theorem readHandle_isSome : (readHandle b).isSome = true ↔ b.toNat < 64 := indexBelow_isSome
theorem readGroup_isSome : (readGroup b).isSome = true ↔ b.toNat < 8 := indexBelow_isSome
theorem readPort_isSome : (readPort b).isSome = true ↔ b.toNat < 4 := indexBelow_isSome

theorem readRights_isSome : (readRights b).isSome = true ↔ b.toNat < 16 := by
  unfold readRights
  split <;> simp [*]

theorem readMask_isSome : (readMask b).isSome = true ↔ b.toNat < 8 := by
  unfold readMask
  split <;> simp [*]

theorem readWeight_isSome {n : Nat} : (readWeight n).isSome = true ↔ n ≠ 0 := by
  unfold readWeight
  split <;> simp [*]

theorem readKind_isSome : (readKind b).isSome = true ↔ b.toNat < 3 := by
  unfold readKind
  split
  · exact iff_of_true rfl (by omega)
  · exact iff_of_true rfl (by omega)
  · exact iff_of_true rfl (by omega)
  · simp only [imp_false] at *
    exact iff_of_false nofun (by omega)

theorem readPolicy_isSome : (readPolicy b).isSome = true ↔ b.toNat < 2 := by
  unfold readPolicy
  split
  · exact iff_of_true rfl (by omega)
  · exact iff_of_true rfl (by omega)
  · simp only [imp_false] at *
    exact iff_of_false nofun (by omega)

theorem readBool_isSome : (readBool b).isSome = true ↔ b.toNat < 2 := by
  unfold readBool
  split
  · exact iff_of_true rfl (by omega)
  · exact iff_of_true rfl (by omega)
  · simp only [imp_false] at *
    exact iff_of_false nofun (by omega)

theorem readSide_isSome : (readSide b).isSome = true ↔ b.toNat < 2 := by
  unfold readSide
  split
  · exact iff_of_true rfl (by omega)
  · exact iff_of_true rfl (by omega)
  · simp only [imp_false] at *
    exact iff_of_false nofun (by omega)

theorem readLimitOp_isSome : (readLimitOp b).isSome = true ↔ b.toNat < 3 := by
  unfold readLimitOp
  split
  · exact iff_of_true rfl (by omega)
  · exact iff_of_true rfl (by omega)
  · exact iff_of_true rfl (by omega)
  · simp only [imp_false] at *
    exact iff_of_false nofun (by omega)

theorem readSigned_isSome {m : Nat} : (readSigned b m).isSome = true ↔ b.toNat < 2 := by
  unfold readSigned
  split
  · exact iff_of_true rfl (by omega)
  · exact iff_of_true rfl (by omega)
  · simp only [imp_false] at *
    exact iff_of_false nofun (by omega)

theorem readRingPolicy_isSome : (readRingPolicy b).isSome = true ↔ b.toNat < 2 := by
  unfold readRingPolicy
  split
  · exact iff_of_true rfl (by omega)
  · exact iff_of_true rfl (by omega)
  · simp only [imp_false] at *
    exact iff_of_false nofun (by omega)

/-- A field out of range is read as nothing. -/
theorem read_none {α : Type} {o : Option α} {inRange : Prop} (reads : o.isSome = true ↔ inRange) (out : ¬inRange) :
    o = none :=
  Option.not_isSome_iff_eq_none.mp (mt reads.mp out)

/-- A field that is read is in range. -/
theorem inRange_of_read {α : Type} {o : Option α} {a : α} {inRange : Prop} (reads : o.isSome = true ↔ inRange)
    (some : o = some a) : inRange :=
  reads.mp (some ▸ rfl)

/-! ## The first check of each request -/

theorem State.onHandle_out (act : HandleId → ViewEntry → Reply) (out : ¬b.toNat < 64) :
    s.onHandle p (readHandle b) act = s.deny .badArg := by
  rw [read_none readHandle_isSome out]
  rfl

theorem State.onGroup_out (act : GroupId → Reply) (out : ¬b.toNat < 8) :
    s.onGroup (readGroup b) act = s.deny .badArg := by
  rw [read_none readGroup_isSome out]
  rfl

theorem actSetMask_out (out : ¬fieldsInRange .setMask pl) : actSetMask s p tag pl = s.deny .badArg := by
  rw [actSetMask, read_none readMask_isSome out]

theorem actDefine_out (out : ¬fieldsInRange .define pl) : actDefine s p tag pl = s.deny .badArg := by
  unfold actDefine
  split
  · rename_i kind group policy reset
    exact absurd ⟨inRange_of_read readKind_isSome kind, inRange_of_read readGroup_isSome group,
      inRange_of_read readPolicy_isSome policy, inRange_of_read readBool_isSome reset⟩ out
  · rfl

theorem actGrant_out (out : ¬fieldsInRange .grant pl) : actGrant s p tag pl = s.deny .badArg := by
  unfold actGrant
  split
  · rename_i port rights
    exact State.onHandle_out _ fun handle =>
      out ⟨handle, inRange_of_read readPort_isSome port, inRange_of_read readRights_isSome rights⟩
  · rfl

theorem actSetLimit_out (out : ¬fieldsInRange .setLimit pl) : actSetLimit s p tag pl = s.deny .badArg := by
  unfold actSetLimit
  split
  · rename_i side op level
    exact State.onHandle_out _ fun handle => out ⟨handle, inRange_of_read readSide_isSome side,
      inRange_of_read readLimitOp_isSome op, inRange_of_read readSigned_isSome level⟩
  · rfl

/-- The weight is zero when both its bytes are (R28). -/
theorem weight_ne_zero (fits : pl.length = 4) (weight : fieldAt pl 2 2 ≠ 0) :
    (byteAt pl 2).toNat ≠ 0 ∨ (byteAt pl 3).toNat ≠ 0 := by
  obtain ⟨b0, b1, b2, b3, rfl⟩ := List.length_eq_four.mp fits
  by_contra zero
  obtain ⟨high, low⟩ := not_or.mp zero
  simp only [byteAt, List.getD_cons_succ, List.getD_cons_zero, not_not] at high low
  exact weight (by simp [fieldAt, beNat, high, low])

theorem actBind_out (fits : accepts .bind pl = true) (out : ¬fieldsInRange .bind pl) :
    actBind s p tag pl = s.deny .badArg := by
  unfold actBind
  split
  · rename_i handle weight
    exact absurd ⟨inRange_of_read readHandle_isSome handle,
      weight_ne_zero (beq_iff_eq.mp fits) (inRange_of_read readWeight_isSome weight)⟩ out
  · rfl

theorem actExchange_out (out : ¬fieldsInRange .exchange pl) : actExchange s p tag pl = s.deny .badArg := by
  unfold actExchange
  split
  · rename_i expected new
    exact State.onHandle_out _ fun handle =>
      out ⟨handle, inRange_of_read readSigned_isSome expected, inRange_of_read readSigned_isSome new⟩
  · rfl

theorem actSetGroup_out (out : ¬fieldsInRange .setGroup pl) : actSetGroup s p tag pl = s.deny .badArg := by
  unfold actSetGroup
  split
  · rfl
  · rename_i policy
    exact State.onGroup_out _ fun group => out ⟨group, inRange_of_read readRingPolicy_isSome policy⟩

theorem actReadSnap_out (out : ¬fieldsInRange .readSnap pl) : actReadSnap s p tag pl = s.deny .badArg := by
  unfold actReadSnap
  split
  · rfl
  · rename_i group
    have cells : (byteAt pl 6).toNat = 0 ∨ Config.maxCellsRead < (byteAt pl 6).toNat := by
      by_contra inside
      obtain ⟨some, few⟩ := not_or.mp inside
      exact out ⟨inRange_of_read readGroup_isSome group, Nat.one_le_iff_ne_zero.mpr some, not_lt.mp few⟩
    exact if_pos cells

theorem actSnapList_out (out : ¬fieldsInRange .snapList pl) : actSnapList s p tag pl = s.deny .badArg := by
  rw [actSnapList, read_none readGroup_isSome out]

theorem actRelease_out (out : ¬fieldsInRange .release pl) : actRelease s p tag pl = s.deny .badArg := by
  rw [actRelease, read_none readGroup_isSome out]

/-- A payload with a field out of range is answered BAD_ARG by its block, which changes nothing (R168). -/
theorem actOf_out (fits : accepts r pl = true) (out : ¬fieldsInRange r pl) : actOf r s p tag pl = s.deny .badArg := by
  cases r with
  | hello | leave | takeEvent | ackEvent | drain | post => exact absurd trivial out
  | setMask => exact actSetMask_out (tag := tag) out
  | define => exact actDefine_out (tag := tag) out
  | grant => exact actGrant_out (tag := tag) out
  | setLimit => exact actSetLimit_out (tag := tag) out
  | bind => exact actBind_out (tag := tag) fits out
  | exchange => exact actExchange_out (tag := tag) out
  | setGroup => exact actSetGroup_out (tag := tag) out
  | readSnap => exact actReadSnap_out (tag := tag) out
  | retire | freeze | resume | claimTally | unbind | read | take | clearFlags => exact State.onHandle_out _ out
  | claimGroup | close | groupStatus => exact State.onGroup_out _ out
  | snapList => exact actSnapList_out (tag := tag) out
  | release => exact actRelease_out (tag := tag) out

/-! ## The port engine -/

/-- A REQUEST transaction for `r` examines its frame for one of the actions of `r`. -/
theorem carriesRequest.exec_eq (carries : carriesRequest c r p tag pl) (s : State) :
    ∃ act, servesAs r act ∧ exec c s = .next (s.request p tag r pl act) := by
  obtain rfl | ⟨rfl, rfl⟩ | ⟨rfl, rfl⟩ := carries
  · exact ⟨actOf r, .inl rfl, exec_requestCommand r p tag pl s⟩
  · exact ⟨actPostTaken, .inr (.inr ⟨rfl, rfl⟩), rfl⟩
  · exact ⟨actHelloTaken, .inr (.inl ⟨rfl, rfl⟩), rfl⟩

theorem State.request_taken (able : s.canTake p) (length : pl.length ≤ 120) :
    s.request p tag r pl act = (s.taken p tag (frameBits pl)).examine p tag r pl act := by
  rw [State.request, s.requestTransaction_taken p tag (reqCode r) pl _ able length]

theorem State.examine_offline (offline : (s.port p).session = .offline) (other : r ≠ .hello) :
    s.examine p tag r pl act = s.respond p tag ⟨.offline, []⟩ :=
  if_pos ⟨offline, other⟩

/-- Past the OFFLINE test the payload's length is tested, and then the block acts (R157). -/
theorem State.examine_open (opened : (s.port p).session = .online ∨ r = .hello) :
    s.examine p tag r pl act = if accepts r pl = true then
      (match act s p tag pl with | (t, some a) => t.respond p tag a | (t, none) => t)
      else s.respond p tag ⟨.badArg, []⟩ := by
  have passes : ¬((s.port p).session = .offline ∧ r ≠ .hello) := by
    rintro ⟨offline, other⟩
    exact opened.elim (fun online => by rw [offline] at online; cases online) other
  rw [State.examine, if_neg passes]
  cases accepts r pl <;> rfl

theorem reqOfCode_unknown {code : Byte} (unknown : requestCodeKnown code = false) : reqOfCode code = none := by
  have known : ∀ r, requestCodeKnown (reqCode r) = true := fun r => by cases r <;> rfl
  refine List.find?_eq_none.mpr fun r _ named => ?_
  rw [← beq_iff_eq.mp named, known r] at unknown
  cases unknown

/-- A frame answered at once: SOn carried the status byte, and the answer is all that changes. -/
theorem answered_taken (acts : exec c s = .next ((s.taken p tag (frameBits pl)).respond p tag ⟨st, []⟩)) :
    ∃ t, exec c s = .next t ∧ s.onlyAnswered t p tag st [] ∧
      (t.port p).so = statusOut (s.port p) (8 * (5 + pl.length)) := by
  refine ⟨_, acts, s.onlyAnswered_taken p tag _ ⟨st, []⟩, ?_⟩
  rw [State.so_respond, State.so_taken_self, repeatBits_statusByte]

/-- Settles O11: UNKNOWN by the code, and for a request the three tests in their order. -/
theorem engineAnswersFirst : Obligations.EngineAnswersFirst := by
  intro s p tag pl able length
  refine ⟨fun code unknown => ?_, fun r c carries => ?_⟩
  · refine answered_taken ?_
    show Host.Outcome.next (s.requestTransaction p ⟨tag, code, pl⟩ fun s f => s.examineFrame p f) = _
    rw [s.requestTransaction_taken p tag code pl _ able length]
    simp only [State.examineFrame, reqOfCode_unknown unknown]
  · obtain ⟨act, serves, acts⟩ := carries.exec_eq s
    rw [State.request_taken able length] at acts
    have same := s.session_taken p p tag (frameBits pl)
    refine ⟨fun offline other => ?_, fun opened refused => ?_, fun online fits out => ?_⟩
    · exact answered_taken (acts.trans (congrArg _ (State.examine_offline (same.trans offline) other)))
    · rw [State.examine_open (by rwa [same]), refused] at acts
      exact answered_taken acts
    · have plain : act = actOf r :=
        serves.eq_actOf (by rintro rfl; exact out trivial) (by rintro rfl; exact out trivial)
      rw [State.examine_open (.inl (same.trans online)), if_pos fits, plain, actOf_out fits out] at acts
      exact answered_taken acts

end Sys2Proof.Machine

/-! O13: HELLO and LEAVE on either side of a session. -/

namespace Sys2Proof.Machine

variable {s t u : State} {p : PortId} {tag : Byte} {pl : List Byte} {w : Work}

/-! ## What the opening and the beginning of a session end leave alone -/

/-- Link state, PRSTn#, POST in progress and tables of port `p` stand, and all beside the port. -/
def State.keepsBeside (s t : State) (p : PortId) : Prop :=
  (t.port p).link = (s.port p).link ∧ (t.port p).prst = (s.port p).prst ∧ (t.port p).posting = (s.port p).posting ∧
    (s.port p).sameTables (t.port p) ∧ s.samePortsBut t p ∧ s.sameBehindPorts t

theorem State.keepsBeside_setPort {y : Port} (link : y.link = (s.port p).link) (prst : y.prst = (s.port p).prst)
    (posting : y.posting = (s.port p).posting) (tables : (s.port p).sameTables y) :
    s.keepsBeside (s.setPort p y) p := by
  rw [State.keepsBeside, State.port_setPort_self]
  exact ⟨link, prst, posting, tables, fun q other => State.port_setPort_ne s p q _ other, s.sameBehindPorts_setPort p _⟩

theorem State.sameBehindPorts.trans (first : s.sameBehindPorts t) (second : t.sameBehindPorts u) :
    s.sameBehindPorts u := by
  obtain ⟨tallies, groups, ⟨rings, cells⟩, pointer, pin, queue⟩ := first
  obtain ⟨tallies', groups', ⟨rings', cells'⟩, pointer', pin', queue'⟩ := second
  exact ⟨fun v => (tallies' v).trans (tallies v), fun g => (groups' g).trans (groups g),
    ⟨fun g => (rings' g).trans (rings g), cells'.trans cells⟩, pointer'.trans pointer, pin'.trans pin,
    queue'.trans queue⟩

theorem State.keepsBeside.trans (first : s.keepsBeside t p) (second : t.keepsBeside u p) : s.keepsBeside u p := by
  obtain ⟨link, prst, posting, ⟨view, fifo, events⟩, others, behind⟩ := first
  obtain ⟨link', prst', posting', ⟨view', fifo', events'⟩, others', behind'⟩ := second
  exact ⟨link'.trans link, prst'.trans prst, posting'.trans posting,
    ⟨view'.trans view, fifo'.trans fifo, events'.trans events⟩, fun q other => (others' q other).trans (others q other),
    State.sameBehindPorts.trans behind behind'⟩

theorem State.keepsBeside_taken (s : State) (p : PortId) (tag : Byte) (n : Nat) : s.keepsBeside (s.taken p tag n) p :=
  State.keepsBeside_setPort rfl rfl rfl ⟨rfl, rfl, rfl⟩

/-- The session of port `p` is open and its HELLO answered. -/
def State.opening (s : State) (p : PortId) (tag : Byte) : State :=
  (s.openSession p).respond p tag ⟨.ok, helloPayload ((s.openSession p).port p).number⟩

/-- The identification in the layout of R170, with the next session number (R165). -/
theorem State.opening_opens (s : State) (p : PortId) (tag : Byte) :
    let t := s.opening p tag
    let number := (s.port p).number + 1
    (t.port p).session = .online ∧ (t.port p).number = number ∧ (t.port p).slot = .ready ⟨tag, .ok, number,
      [0x0A, 0x42, 0x01, number, 4, 0x01, 0x00, 8, 64, 8, 16, 0x04, 0x00]⟩ ∧
      (t.port p).sessionEnd = (s.port p).sessionEnd ∧ (t.port p).reason = (s.port p).reason ∧ s.keepsBeside t p := by
  intro t number
  have opens : s.keepsBeside (s.openSession p) p := State.keepsBeside_setPort rfl rfl rfl ⟨rfl, rfl, rfl⟩
  have answers : (s.openSession p).keepsBeside t p := State.keepsBeside_setPort rfl rfl rfl ⟨rfl, rfl, rfl⟩
  have port : (s.openSession p).port p = ({ s.port p with session := .online, number := number } : Port).driveAlert :=
    State.port_setPort_self ..
  have here : t.port p = ({ (s.openSession p).port p with slot := _ } : Port).driveAlert := State.port_respond_self ..
  have kept := opens.trans answers
  rw [port] at here
  refine ⟨?_, ?_, ?_, ?_, ?_, kept⟩ <;> rw [here] <;> rfl

theorem State.beginSessionEnd_begins (s : State) (p : PortId) (w : Work) :
    let t := s.beginSessionEnd p w
    (t.port p).slot = .working w ∧ (t.port p).sessionEnd = some .views ∧ (t.port p).session = (s.port p).session ∧
      (t.port p).number = (s.port p).number ∧ (t.port p).reason = (s.port p).reason ∧ s.keepsBeside t p := by
  intro t
  have here : t.port p = _ := State.port_setPort_self s p _
  rw [here]
  exact ⟨rfl, rfl, rfl, rfl, rfl, State.keepsBeside_setPort rfl rfl rfl ⟨rfl, rfl, rfl⟩⟩

/-! ## The commands on the state with the frame taken -/

theorem actHello_offline (offline : (s.port p).session = .offline) : actHello s p tag pl =
    (s.openSession p, some ⟨.ok, helloPayload ((s.openSession p).port p).number⟩) := by
  rw [actHello, offline]
  rfl

theorem actHelloTaken_offline (offline : (s.port p).session = .offline) : actHelloTaken s p tag pl =
    (s.setPort p { s.port p with slot := .working (.hello tag) }, none) := by
  rw [actHelloTaken, offline]

theorem actHello_online (online : (s.port p).session = .online) :
    actHello s p tag pl = (s.beginSessionEnd p (.hello tag), none) := by
  rw [actHello, online]

theorem actHelloTaken_online (online : (s.port p).session = .online) :
    actHelloTaken s p tag pl = (s.beginSessionEnd p (.hello tag), none) := by
  rw [actHelloTaken, online]

theorem State.request_hello (able : s.canTake p) (act : State → PortId → Byte → List Byte → Reply) :
    s.request p tag .hello [] act = match act (s.taken p tag 40) p tag [] with
      | (t, some a) => t.respond p tag a
      | (t, none) => t := by
  rw [State.request_taken able (Nat.zero_le _), State.examine_open (.inr rfl)]
  rfl

theorem exec_hello_opens (able : s.canTake p) (offline : (s.port p).session = .offline) :
    exec (.hello p tag ⟨[], true⟩) s = .next ((s.taken p tag 40).opening p tag) := by
  show Host.Outcome.next (s.request p tag .hello [] actHello) = _
  rw [State.request_hello able, actHello_offline (by rwa [State.session_taken])]
  rfl

theorem exec_hello_waits (able : s.canTake p) (offline : (s.port p).session = .offline) :
    exec (.hello p tag ⟨[], false⟩) s =
      .next ((s.taken p tag 40).setPort p { (s.taken p tag 40).port p with slot := .working (.hello tag) }) := by
  show Host.Outcome.next (s.request p tag .hello [] actHelloTaken) = _
  rw [State.request_hello able, actHelloTaken_offline (by rwa [State.session_taken])]

theorem exec_hello_begins (able : s.serves p) (opens : Bool) :
    exec (.hello p tag ⟨[], opens⟩) s = .next ((s.taken p tag 40).beginSessionEnd p (.hello tag)) := by
  obtain ⟨able, online⟩ := able
  have still : ((s.taken p tag 40).port p).session = .online := by rwa [State.session_taken]
  show Host.Outcome.next (s.request p tag .hello [] (if opens then actHello else actHelloTaken)) = _
  rw [State.request_hello able]
  cases opens
  · rw [if_neg Bool.false_ne_true, actHelloTaken_online still]
  · rw [if_pos rfl, actHello_online still]

theorem exec_leave_begins (able : s.serves p) :
    exec (.leave p tag []) s = .next ((s.taken p tag 40).beginSessionEnd p (.leave tag)) := by
  show Host.Outcome.next (s.request p tag .leave [] actLeave) = _
  rw [s.request_served p tag .leave [] actLeave able (Nat.zero_le _) rfl]
  rfl

theorem exec_helloOpenSession (awake : s.resetPin = false) (offline : (s.port p).session = .offline)
    (done : (s.port p).sessionEnd = none) (waits : (s.port p).slot = .working (.hello tag)) :
    exec (.helloOpenSession p) s = .next (s.opening p tag) := by
  show Host.Outcome.next (s.unlessReset _) = _
  rw [State.unlessReset, awake, if_neg Bool.false_ne_true, State.openAfterEnd, offline, done, waits]
  rfl

/-- A command that begins a session end on a served port with a frame taken (R160, R163). -/
theorem begins_of_taken (able : s.serves p) :
    let t := (s.taken p tag 40).beginSessionEnd p w
    (t.port p).slot = .working w ∧ (t.port p).sessionEnd = some .views ∧ (t.port p).session = .online ∧
      (t.port p).number = (s.port p).number ∧ (t.port p).reason = .none ∧ s.keepsBeside t p := by
  obtain ⟨-, online⟩ := able
  obtain ⟨slot, sessionEnd, session, number, reason, kept⟩ := (s.taken p tag 40).beginSessionEnd_begins p w
  exact ⟨slot, sessionEnd, session.trans ((s.session_taken p p tag 40).trans online),
    number.trans (s.number_taken p p tag 40), reason.trans (s.reason_taken_self p tag 40),
    (s.keepsBeside_taken p tag 40).trans kept⟩

/-- Settles O13: HELLO in its two forms on an OFFLINE port, the opening that was left, HELLO and LEAVE ONLINE. -/
theorem helloAndLeaveOpenAndEndSessions : Obligations.HelloAndLeaveOpenAndEndSessions := by
  intro s p tag kept opened begun
  have taken := s.keepsBeside_taken p tag 40
  refine ⟨fun offline able => ⟨?_, ?_⟩, fun offline awake done waits => ?_, fun able => ⟨fun opens => ?_, ?_⟩⟩
  · obtain ⟨session, number, slot, sessionEnd, reason, beside⟩ := (s.taken p tag 40).opening_opens p tag
    rw [State.number_taken] at number slot
    exact ⟨_, exec_hello_opens able offline, ⟨session, number, slot, sessionEnd.trans (s.sessionEnd_taken p p tag 40),
      taken.trans beside⟩, reason.trans (s.reason_taken_self p tag 40)⟩
  · have waits : (s.taken p tag 40).keepsBeside ((s.taken p tag 40).setPort p
        { (s.taken p tag 40).port p with slot := .working (.hello tag) }) p :=
      State.keepsBeside_setPort rfl rfl rfl ⟨rfl, rfl, rfl⟩
    obtain ⟨link, prst, posting, tables, others, behind⟩ := taken.trans waits
    refine ⟨_, exec_hello_waits able offline, ?_, ?_, ⟨⟨?_, ?_, ?_, posting, link, prst⟩, tables⟩, others, behind⟩
    all_goals simp
  · obtain ⟨session, number, slot, sessionEnd, reason, beside⟩ := s.opening_opens p tag
    exact ⟨_, exec_helloOpenSession awake offline done waits, ⟨session, number, slot, sessionEnd, beside⟩, reason⟩
  · exact ⟨_, exec_hello_begins able opens, begins_of_taken able⟩
  · exact ⟨_, exec_leave_begins able, begins_of_taken able⟩

end Sys2Proof.Machine

/-! ## The step -/

namespace Sys2Proof.Machine

theorem step_of_pending_cons {s : State} {c : Instr} {rest : List Instr} (front : s.pending = c :: rest) :
    step s = exec c (s.setPending rest) := by
  rw [step, front]

theorem step_of_pending_nil {s : State} (idle : s.pending = []) : step s = .next s := by
  rw [step, idle]

/-- Settles O1: the step is the case split on the queue, whose two cases are the two clauses. -/
theorem stepRunsTheFrontCommand : Obligations.StepRunsTheFrontCommand :=
  fun _ _ _ => ⟨step_of_pending_cons, step_of_pending_nil⟩

end Sys2Proof.Machine
